-- ==== Sys2Proof/Word.lean ====
section
/-! DEFINITION. The word and byte types of CTK-CE (00_scope.md R9: word width 32 bits; R14: byte strings). -/

namespace Sys2Proof

/-- A 32-bit word: a register, a matrix word, a command word (R9). Addition of words is `⊞` of R15. -/
abbrev Word := BitVec 32

/-- One byte of the data buffer or of a byte string (R14). -/
abbrev Byte := BitVec 8

end Sys2Proof
end

