-- ==== Sys2Proof/Syntax.lean ====
section
/-! DEFINITION. The 19 commands of CTK-CE, one constructor per row of spec/opcode_table.json
(30_encoding.md R144). -/

namespace Sys2Proof

/-- A decoded command.  Only QR has operands in the command word: the four 4-bit indices into
STATE[0..15] of 30_encoding.md R142 (R147: every other operand is read from a register). -/
inductive Instr where
  /-- QR a, b, c, d: quarter round on four words of STATE (R212). -/
  | qr (a b c d : Fin 16)
  /-- COLRND: one column round on STATE (R213). -/
  | colrnd
  /-- DIAGRND: one diagonal round on STATE (R214). -/
  | diagrnd
  /-- DBLRND: one double round on STATE (R215). -/
  | dblrnd
  /-- PERM20: the 20-round permutation on STATE (R216). -/
  | perm20
  /-- CORE20: permutation plus feed-forward on STATE (R217). -/
  | core20
  /-- STLD_CC: load STATE with the ChaCha20 initial matrix (R218). -/
  | stldCc
  /-- STLD_HC: load STATE with the HChaCha20 initial matrix (R219). -/
  | stldHc
  /-- CC_INIT: initialise the ChaCha20 context (R220). -/
  | ccInit
  /-- CC_BLOCK: one keystream block into the buffer (R221). -/
  | ccBlock
  /-- CC_XOR: XOR a buffer region with keystream (R222). -/
  | ccXor
  /-- P_INIT: initialise the Poly1305 context (R269). -/
  | pInit
  /-- P_TAG: authenticate one message (R270). -/
  | pTag
  /-- AEAD_ENC: ChaCha20-Poly1305 encryption (R308). -/
  | aeadEnc
  /-- AEAD_DEC: ChaCha20-Poly1305 verify-then-decrypt (R309). -/
  | aeadDec
  /-- HCHACHA: derive a subkey (R342). -/
  | hchacha
  /-- XC_INIT: initialise the ChaCha20 context for XChaCha20 (R362). -/
  | xcInit
  /-- XAEAD_ENC: XChaCha20-Poly1305 encryption (R364). -/
  | xaeadEnc
  /-- XAEAD_DEC: XChaCha20-Poly1305 verify-then-decrypt (R365). -/
  | xaeadDec
  deriving DecidableEq, Repr

end Sys2Proof
end

