-- ==== Sys2Proof/WellFormed.lean ====
section
/-! DEFINITION. Which instruction terms are legal commands (30_encoding.md R142: the one condition on an
operand). -/

namespace Sys2Proof

/-- R142: "The four indices must be pairwise distinct." -/
def indicesDistinct (a b c d : Fin 16) : Bool :=
  a != b && a != c && a != d && b != c && b != d && c != d

/-- A legal command: QR with pairwise-distinct indices, or any of the other 18. -/
def Instr.wellFormed : Instr → Bool
  | .qr a b c d => indicesDistinct a b c d
  | .colrnd | .diagrnd | .dblrnd | .perm20 | .core20 | .stldCc | .stldHc
  | .ccInit | .ccBlock | .ccXor | .pInit | .pTag | .aeadEnc | .aeadDec
  | .hchacha | .xcInit | .xaeadEnc | .xaeadDec => true

end Sys2Proof
end

