-- ==== Sys2Proof/Decode.lean ====
section
/-! DEFINITION. The command word: its fields, the opcode map, the decoder and the encoder
(30_encoding.md R140 to R145). -/

namespace Sys2Proof

/-- Why a word is not a command; each is ILLEGAL_CMD at completion (60_exceptions.md R405). -/
inductive DecodeError where
  /-- `w[31:24] ≠ 0`, or `w[23:8] ≠ 0` for a command other than QR (R143). -/
  | reservedBits
  /-- OP is in the reserved set of R145. -/
  | reservedOpcode
  /-- OP is QR and QA, QB, QC, QD are not pairwise distinct (R142). -/
  | repeatedIndices
  deriving DecidableEq, Repr

/-- OP, `w[7:0]` (R141). -/
def opField (w : Word) : Byte := w.extractLsb' 0 8
/-- QA, `w[11:8]` (R142). -/
def qaField (w : Word) : Fin 16 := (w.extractLsb' 8 4).toFin
/-- QB, `w[15:12]` (R142). -/
def qbField (w : Word) : Fin 16 := (w.extractLsb' 12 4).toFin
/-- QC, `w[19:16]` (R142). -/
def qcField (w : Word) : Fin 16 := (w.extractLsb' 16 4).toFin
/-- QD, `w[23:20]` (R142). -/
def qdField (w : Word) : Fin 16 := (w.extractLsb' 20 4).toFin
/-- `w[31:24]`, reserved in every command (R143). -/
def topField (w : Word) : Byte := w.extractLsb' 24 8
/-- `w[23:8]`, reserved in every command but QR (R143). -/
def midField (w : Word) : BitVec 16 := w.extractLsb' 8 16

/-- The opcode of QR (R144). -/
def qrOpcode : Byte := 0x10

/-- The opcode map of R144, less QR: the commands whose 32 bits are all fixed. -/
def fixedRows : List (Byte × Instr) :=
  [(0x11, .colrnd), (0x12, .diagrnd), (0x13, .dblrnd), (0x14, .perm20), (0x15, .core20),
   (0x16, .stldCc), (0x17, .stldHc)] ++
  [(0x20, .ccInit), (0x21, .ccBlock), (0x22, .ccXor)] ++
  [(0x30, .pInit), (0x31, .pTag)] ++
  [(0x40, .aeadEnc), (0x41, .aeadDec)] ++
  [(0x50, .hchacha)] ++
  [(0x60, .xcInit), (0x61, .xaeadEnc), (0x62, .xaeadDec)]

/-- The decoder of R144: "Every 32-bit word thus decodes to exactly one row or to 'illegal'". -/
def decode (w : Word) : Except DecodeError Instr :=
  if topField w ≠ 0 then .error .reservedBits
  else if opField w = qrOpcode then
    if indicesDistinct (qaField w) (qbField w) (qcField w) (qdField w) then
      .ok (.qr (qaField w) (qbField w) (qcField w) (qdField w))
    else .error .repeatedIndices
  else
    match fixedRows.lookup (opField w) with
    | none => .error .reservedOpcode
    | some i => if midField w = 0 then .ok i else .error .reservedBits

/-- OP of each command (R144). -/
def Instr.opcode : Instr → Byte
  | .qr _ _ _ _ => 0x10
  | .colrnd => 0x11
  | .diagrnd => 0x12
  | .dblrnd => 0x13
  | .perm20 => 0x14
  | .core20 => 0x15
  | .stldCc => 0x16
  | .stldHc => 0x17
  | .ccInit => 0x20
  | .ccBlock => 0x21
  | .ccXor => 0x22
  | .pInit => 0x30
  | .pTag => 0x31
  | .aeadEnc => 0x40
  | .aeadDec => 0x41
  | .hchacha => 0x50
  | .xcInit => 0x60
  | .xaeadEnc => 0x61
  | .xaeadDec => 0x62

/-- `w[23:8]` of each command: the four indices of QR, 0 in every other (R140). -/
def Instr.middle : Instr → BitVec 16
  | .qr a b c d =>
    BitVec.ofFin (w := 4) d ++ BitVec.ofFin (w := 4) c ++ BitVec.ofFin (w := 4) b ++ BitVec.ofFin (w := 4) a
  | .colrnd | .diagrnd | .dblrnd | .perm20 | .core20 | .stldCc | .stldHc
  | .ccInit | .ccBlock | .ccXor | .pInit | .pTag | .aeadEnc | .aeadDec
  | .hchacha | .xcInit | .xaeadEnc | .xaeadDec => 0

/-- The command word of an instruction (R140): `w[31:24] = 0`, the middle field, OP. -/
def encode (i : Instr) : Word := (0 : Byte) ++ i.middle ++ i.opcode

/-- The host's question about a table row: the instruction the decoder reads from a command word whose
bits are `w`.  A command is one 32-bit word (R140), so bits above `nbits` are 0 and a number that does
not fit the word is no command. -/
def decodeTableWord (nbits w : Nat) : Option Instr :=
  let v := w % 2 ^ nbits
  if v < 2 ^ 32 then
    match decode (BitVec.ofNat 32 v) with
    | .ok i => some i
    | .error _ => none
  else none

end Sys2Proof
end

