-- ==== Sys2Proof/Machine/Operands.lean ====
section
/-! DEFINITION. Conversions between bytes, words and integers, and the rotation of a word (00_scope.md R15,
R16): the forms in which every command takes its operands (30_encoding.md R147). -/

namespace Sys2Proof.Machine

/-- `rotl(x, n) = ((x << n) | (x >> (32 − n))) mod 2^32` for 0 < n < 32 (R15). -/
def rotl (x : Word) (n : Nat) : Word := (x <<< n) ||| (x >>> (32 - n))

/-- `ceil(a / b)` (R17). -/
def ceilDiv (a b : Nat) : Nat := (a + (b - 1)) / b

/-- `LEint(B) = Σ B[i]·2^(8i)` (R16). -/
def leInt : List Byte → Nat
  | [] => 0
  | b :: bs => b.toNat + 2 ^ 8 * leInt bs

/-- `LE32(B, i) = B[i] + 2^8·B[i+1] + 2^16·B[i+2] + 2^24·B[i+3]` (R16). -/
def le32 (B : List Byte) (i : Nat) : Word :=
  BitVec.ofNat 32
    ((B.getD i 0).toNat + 2 ^ 8 * (B.getD (i + 1) 0).toNat + 2 ^ 16 * (B.getD (i + 2) 0).toNat
      + 2 ^ 24 * (B.getD (i + 3) 0).toNat)

/-- `SER32(w)`: the bytes `w[7:0], w[15:8], w[23:16], w[31:24]` (R16). -/
def ser32 (w : Word) : List Byte :=
  [w.extractLsb' 0 8, w.extractLsb' 8 8, w.extractLsb' 16 8, w.extractLsb' 24 8]

/-- `SERn(x, k)`: the k bytes of `x mod 2^(8k)` in little-endian order (R16). -/
def serN (x : Nat) : Nat → List Byte
  | 0 => []
  | k + 1 => BitVec.ofNat 8 x :: serN (x / 2 ^ 8) k

/-- `SERW(list)`: the concatenation of `SER32` of each word (R16). -/
def serW (ws : List Word) : List Byte := ws.flatMap ser32

/-- `WORDS(B)` for |B| a multiple of 4 (R16). -/
def words : List Byte → List Word
  | a :: b :: c :: d :: rest => le32 [a, b, c, d] 0 :: words rest
  | _ => []

/-- `Σ w_i·2^(32i)`: the integer that words hold, word 0 lowest (R52, R53). -/
def wordsInt : List Word → Nat
  | [] => 0
  | w :: ws => w.toNat + 2 ^ 32 * wordsInt ws

/-- `zeros(n)`: n bytes of value 0 (R14). -/
def zeros (n : Nat) : List Byte := List.replicate n 0

/-- Bytes XORed position by position, as long as the shorter string. -/
def xorBytes (A B : List Byte) : List Byte := List.zipWith (· ^^^ ·) A B

/-- The four TAG words of a 16-byte tag: `TAG_i = LE32(t, 4i)` (R45). -/
def tagWords (T : List Byte) : Vector Word 4 := #v[le32 T 0, le32 T 4, le32 T 8, le32 T 12]

end Sys2Proof.Machine
end

