-- ==== Sys2Proof/Machine/ChaCha.lean ====
section
/-! DEFINITION. The functions of the ChaCha20 core and of HChaCha20 (40_chacha20_core.md Part 1, R200 to R210;
43_hchacha20.md R340, R341; 44_xchacha20.md R360, R361).  They are functions of words and bytes, without
state. -/

namespace Sys2Proof.Machine

/-- The constant row SIGMA: "expand 32-byte k" as four words (R200). -/
def sigma : Vector Word 4 := #v[0x61707865, 0x3320646e, 0x79622d32, 0x6b206574]

/-- The quarter round (R201): "Each step reads the values the previous steps wrote." -/
def quarterRound (a b c d : Word) : Word × Word × Word × Word :=
  let a := a + b
  let d := rotl (d ^^^ a) 16
  let c := c + d
  let b := rotl (b ^^^ c) 12
  let a := a + b
  let d := rotl (d ^^^ a) 8
  let c := c + d
  let b := rotl (b ^^^ c) 7
  (a, b, c, d)

/-- `QRX(X, i, j, k, l)`: the quarter round on four words of a matrix (R202). -/
def qrx (X : Vector Word 16) (i j k l : Fin 16) : Vector Word 16 :=
  let q := quarterRound X[i] X[j] X[k] X[l]
  (((X.set i q.1).set j q.2.1).set k q.2.2.1).set l q.2.2.2

/-- The column round (R203). -/
def columnRound (X : Vector Word 16) : Vector Word 16 :=
  qrx (qrx (qrx (qrx X 0 4 8 12) 1 5 9 13) 2 6 10 14) 3 7 11 15

/-- The diagonal round (R204). -/
def diagonalRound (X : Vector Word 16) : Vector Word 16 :=
  qrx (qrx (qrx (qrx X 0 5 10 15) 1 6 11 12) 2 7 8 13) 3 4 9 14

/-- The double round: column round, then diagonal round (R205). -/
def doubleRound (X : Vector Word 16) : Vector Word 16 := diagonalRound (columnRound X)

/-- n double rounds in sequence. -/
def doubleRounds : Nat → Vector Word 16 → Vector Word 16
  | 0, X => X
  | n + 1, X => doubleRounds n (doubleRound X)

/-- `PERMUTE(X) = DOUBLE^10(X)` (R206). -/
def permute (X : Vector Word 16) : Vector Word 16 := doubleRounds 10 X

/-- Feed-forward: two matrices added word by word modulo 2^32 (R207). -/
def addMatrix (X Y : Vector Word 16) : Vector Word 16 :=
  #v[X[0] + Y[0], X[1] + Y[1], X[2] + Y[2], X[3] + Y[3],
     X[4] + Y[4], X[5] + Y[5], X[6] + Y[6], X[7] + Y[7],
     X[8] + Y[8], X[9] + Y[9], X[10] + Y[10], X[11] + Y[11],
     X[12] + Y[12], X[13] + Y[13], X[14] + Y[14], X[15] + Y[15]]

/-- The block function with feed-forward: `CORE(X)[i] = PERMUTE(X)[i] ⊞ X[i]` (R207). -/
def coreBlock (X : Vector Word 16) : Vector Word 16 := addMatrix (permute X) X

/-- The ChaCha20 initial matrix INITCC (R208). -/
def initCc (kw : Vector Word 8) (ctr : Word) (nw : Vector Word 3) : Vector Word 16 :=
  #v[sigma[0], sigma[1], sigma[2], sigma[3],
     kw[0], kw[1], kw[2], kw[3], kw[4], kw[5], kw[6], kw[7],
     ctr, nw[0], nw[1], nw[2]]

/-- The HChaCha20 initial matrix INITHC (R340). -/
def initHc (kw : Vector Word 8) (hw : Vector Word 4) : Vector Word 16 :=
  #v[sigma[0], sigma[1], sigma[2], sigma[3],
     kw[0], kw[1], kw[2], kw[3], kw[4], kw[5], kw[6], kw[7],
     hw[0], hw[1], hw[2], hw[3]]

/-- The keystream block KSB, 64 bytes, word 0 first, each word little-endian (R209). -/
def keystreamBlock (kw : Vector Word 8) (ctr : Word) (nw : Vector Word 3) : List Byte :=
  serW (coreBlock (initCc kw ctr nw)).toList

/-- The bytes XORKS writes for `nb` blocks from counter `c` (R210): each block of the message XORed with its
keystream block, the unused bytes of the last one discarded. -/
def xorBlocks (kw : Vector Word 8) (nw : Vector Word 3) : Nat → Nat → List Byte → List Byte
  | 0, _, _ => []
  | nb + 1, c, M =>
    xorBytes (M.take 64) (keystreamBlock kw (BitVec.ofNat 32 c) nw) ++ xorBlocks kw nw nb (c + 1) (M.drop 64)

/-- `XORKS(kw, nw, c0, M)`: the output and the counter after it (R210). -/
def xorKs (kw : Vector Word 8) (nw : Vector Word 3) (c0 : Nat) (M : List Byte) : List Byte × Nat :=
  let nb := ceilDiv M.length 64
  (xorBlocks kw nw nb c0 M, c0 + nb)

/-- The HChaCha20 function (R341): the first and last rows of the permuted matrix, no feed-forward. -/
def hchacha20 (kw : Vector Word 8) (hw : Vector Word 4) : Vector Word 8 :=
  let X := permute (initHc kw hw)
  #v[X[0], X[1], X[2], X[3], X[12], X[13], X[14], X[15]]

/-- XDERIVE (R361): the subkey and the derived nonce words `[0, NONCE4, NONCE5]` of a 24-byte nonce, whose
first 16 bytes go to HChaCha20 (R360). -/
def xDerive (kw : Vector Word 8) (x : Vector Word 6) : Vector Word 8 × Vector Word 3 :=
  (hchacha20 kw #v[x[0], x[1], x[2], x[3]], #v[0, x[4], x[5]])

end Sys2Proof.Machine
end

