-- ==== Sys2Proof/Machine/Poly.lean ====
section
/-! DEFINITION. The functions of the Poly1305 authenticator (41_poly1305.md Part 1, R260 to R267), on
unbounded non-negative integers. -/

namespace Sys2Proof.Machine

/-- The modulus `p = 2^130 − 5` (R260). -/
def polyP : Nat := 2 ^ 130 - 5

/-- `CLAMP(r0) = r0 AND 0x0ffffffc0ffffffc0ffffffc0fffffff` (R262). -/
def clamp (r0 : Nat) : Nat := r0 &&& 0x0ffffffc0ffffffc0ffffffc0fffffff

/-- The clamp on the four words of r (R262). -/
def clampWords (k : Vector Word 8) : Vector Word 4 :=
  #v[k[0] &&& 0x0fffffff, k[1] &&& 0x0ffffffc, k[2] &&& 0x0ffffffc, k[3] &&& 0x0ffffffc]

/-- The block value `v(B) = LEint(B) + 2^(8m)` of a block of m bytes (R264; 90_conflicts.md C1). -/
def blockValue (B : List Byte) : Nat := leInt B + 2 ^ (8 * B.length)

/-- One accumulator update, `((ACC + v(B)) · r) mod p` (R265). -/
def polyStep (r acc : Nat) (B : List Byte) : Nat := ((acc + blockValue B) * r) % polyP

/-- The update over `nb` blocks of at most 16 bytes (R263, R265). -/
def polyBlocks (r : Nat) : Nat → Nat → List Byte → Nat
  | 0, acc, _ => acc
  | nb + 1, acc, M => polyBlocks r nb (polyStep r acc (M.take 16)) (M.drop 16)

/-- The accumulator after the whole message, from `acc` (R263: `ceil(n/16)` blocks, none for n = 0). -/
def polyAcc (r acc : Nat) (M : List Byte) : Nat := polyBlocks r (ceilDiv M.length 16) acc M

/-- Finalisation: `SERn((ACC + s) mod 2^128, 16)` (R266). -/
def polyTag (acc s : Nat) : List Byte := serN ((acc + s) % 2 ^ 128) 16

/-- `POLY(K, M)` (R267): the final accumulator and the 16-byte tag. -/
def poly (K M : List Byte) : Nat × List Byte :=
  let r := clamp (leInt (K.take 16))
  let s := leInt ((K.drop 16).take 16)
  let acc := polyAcc r 0 M
  (acc, polyTag acc s)

end Sys2Proof.Machine
end

