-- ==== Sys2Proof/Machine/Compose.lean ====
section
/-! DEFINITION. The functions of the AEAD composer (42_aead.md Part 1, R300 to R307). -/

namespace Sys2Proof.Machine

/-- Poly1305 key derivation PK: the first 32 bytes of the keystream block at counter 0 (R300). -/
def polyKey (kw : Vector Word 8) (nw : Vector Word 3) : List Byte := (keystreamBlock kw 0 nw).take 32

/-- `PAD16(X)`: the fewest zero bytes that make the length a multiple of 16 (R302). -/
def pad16 (X : List Byte) : List Byte := zeros ((16 - X.length % 16) % 16)

/-- MACDATA(A, C) (R301); lengths are counted in bytes (R303). -/
def macData (A C : List Byte) : List Byte :=
  A ++ pad16 A ++ C ++ pad16 C ++ serN A.length 8 ++ serN C.length 8

/-- The tag of a ciphertext and associated data under a derived Poly1305 key (R304, R305). -/
def aeadTag (kw : Vector Word 8) (nw : Vector Word 3) (A C : List Byte) : List Byte :=
  (poly (polyKey kw nw) (macData A C)).2

/-- SEAL (R304): the ciphertext, whose keystream starts at counter 1, and the tag. -/
def sealMessage (kw : Vector Word 8) (nw : Vector Word 3) (P A : List Byte) : List Byte × List Byte :=
  let C := (xorKs kw nw 1 P).1
  (C, aeadTag kw nw A C)

/-- `TAGEQ(X, Y)`: all 16 bytes equal (R307). -/
def tagEq (X Y : List Byte) : Bool := X == Y

/-- OPEN (R305): the plaintext, or `none` for FAIL when the tags differ. -/
def openMessage (kw : Vector Word 8) (nw : Vector Word 3) (C A T : List Byte) : Option (List Byte) :=
  if tagEq (aeadTag kw nw A C) T then some (xorKs kw nw 1 C).1 else none

end Sys2Proof.Machine
end

