-- ==== Sys2Proof/Config.lean ====
section
/-! DEFINITION. What an implementation of CTK-CE fixes (00_scope.md R10) and the free values of the
spec (20_memory.md R118).  COMPLETION_LATENCY (R11) has no number here: it is the number of host turns
that stand before the engine's turn in the model's agenda (DESIGN CHOICE, safe; log 2). -/

namespace Sys2Proof

/-- The implementation parameter of CTK-CE (R10, R12: there is no other with a value a rule uses).
The spec's model "takes it as an argument"; `exec`, `step` and every accessor take it inside the state
they are given, and no step changes it (DESIGN CHOICE, safe; log 1). -/
structure Config where
  /-- BUF_SIZE, the size in bytes of the data buffer. -/
  bufSize : Nat
  deriving DecidableEq, Repr

/-- R10: BUF_SIZE "must be a multiple of 4 with 64 ≤ BUF_SIZE ≤ 2^31". -/
abbrev Config.Legal (c : Config) : Prop :=
  c.bufSize % 4 = 0 ∧ 64 ≤ c.bufSize ∧ c.bufSize ≤ 2 ^ 31

/-- R10: the reference value, 4096 (its use in `State.reset` is a DESIGN CHOICE, unsafe; log 1). -/
def Config.reference : Config := ⟨4096⟩

/-- FREE VALUE (R118, I7): the byte at a buffer address that has not been written since the given
power-on, counted from 0.  "A draw, a free value under no law": it has no body, so nothing can be
proved of it (safe; log 3). -/
opaque Config.powerOnByte : Nat → Nat → Byte

end Sys2Proof
end

