-- ==== Sys2Proof/Machine/State.lean ====
section
/-! DEFINITION. The state of CTK-CE (10_state.md R30 to R62), the accesses of its host port (20_memory.md
R100 to R103), the reasons a step can stop, and the state after power-on reset
(70_reset_and_hazards.md R450). -/

namespace Sys2Proof.Machine

/-- The error codes of 60_exceptions.md R401, in code order; STATUS.ERR holds one of them and codes 10 to
255 are "never produced". -/
inductive ErrCode where
  /-- 0: success. -/
  | ok
  /-- 1: reserved opcode, nonzero reserved bit, repeated QR indices (R405). -/
  | illegalCmd
  /-- 2: LENCFG.KEY_LEN is not the required size (R406). -/
  | invalidKeyLength
  /-- 3: LENCFG.NONCE_LEN is not the required size (R407). -/
  | invalidNonceLength
  /-- 4: LENCFG.TAG_LEN is not 16 on a decrypt (R408). -/
  | invalidTagLength
  /-- 5: a region outside the buffer (R409). -/
  | bufferRange
  /-- 6: stream or tag command with no context (R410). -/
  | notInitialised
  /-- 7: second P_TAG on one Poly1305 context (R411). -/
  | instanceConsumed
  /-- 8: the block counter would pass 2^32 − 1 (R412). -/
  | counterOverflow
  /-- 9: tag mismatch on decrypt (R413). -/
  | authenticationFailed
  deriving DecidableEq, Repr

/-- PSTAT (R55): READY and USED "are never both 1.  Together they give the instance state". -/
inductive PolyPhase where
  /-- NONE: READY = 0, USED = 0; after reset. -/
  | none
  /-- READY: after P_INIT. -/
  | ready
  /-- USED: after a P_TAG that succeeded. -/
  | used
  deriving DecidableEq, Repr

/-- One access of the host port (R100, R102, R103): its width in bits, its byte offset in the window
and, for a write, the word written.  The value of a write of another width than 32 bits is never used:
such an access is not performed (R103; log 7). -/
inductive HostAccess where
  | read (width offset : Nat)
  | write (width offset : Nat) (value : Word)
  deriving DecidableEq, Repr

/-- One entry of the agenda: which agent moves next (R100: the host and the engine; R450: power-on reset
comes from outside). -/
inductive Turn where
  /-- The host performs one access (R112: "one at a time in the order the host issues them"). -/
  | host (a : HostAccess)
  /-- The engine moves: it completes the outstanding command, if there is one (R403). -/
  | engine
  /-- A power-on reset (R450); that it may come at any turn is a DESIGN CHOICE, safe (log 9). -/
  | powerOn
  deriving DecidableEq, Repr

/-- The data buffer BUF (R101) as the bytes written since power-on: (address, byte) pairs, addresses
strictly rising (`Memory.Wf`).  An unlisted address has not been written since power-on (R118). -/
abbrev Memory := List Host.Cell

/-- The state of CTK-CE.  The fields of the first group are the spec's (R30), each register by its name in
R56; those of the second are the model's own.  ID and CMD store nothing (R31, R34). -/
structure State where
  /-- CTRL.IE (R32). -/
  ie : Bool
  /-- STATUS.BUSY, the engine phase (R30, R33). -/
  busy : Bool
  /-- STATUS.DONE (R33). -/
  done : Bool
  /-- STATUS.AERR (R33). -/
  aerr : Bool
  /-- STATUS.ERR (R33, R401). -/
  err : ErrCode
  /-- LASTCMD (R35): the word of the most recently issued command. -/
  lastcmd : Word
  /-- LENCFG.KEY_LEN (R36). -/
  keyLen : Byte
  /-- LENCFG.NONCE_LEN (R36). -/
  nonceLen : Byte
  /-- LENCFG.TAG_LEN (R36). -/
  tagLen : Byte
  /-- COUNTER (R37). -/
  counter : Word
  /-- SRC (R38). -/
  src : Word
  /-- DST (R39). -/
  dst : Word
  /-- LEN (R40). -/
  len : Word
  /-- AAD (R41). -/
  aad : Word
  /-- AADLEN (R42). -/
  aadlen : Word
  /-- KEY0 to KEY7 (R43). -/
  key : Vector Word 8
  /-- NONCE0 to NONCE5 (R44). -/
  nonce : Vector Word 6
  /-- TAG0 to TAG3 (R45). -/
  tag : Vector Word 4
  /-- SUBKEY0 to SUBKEY7 (R46). -/
  subkey : Vector Word 8
  /-- STATE0 to STATE15, the working matrix STATE[0..15] (R47). -/
  mat : Vector Word 16
  /-- CCKEY0 to CCKEY7 (R48). -/
  cckey : Vector Word 8
  /-- CCNONCE0 to CCNONCE2 (R49). -/
  ccnonce : Vector Word 3
  /-- CCNEXT (R50): the integer counter of the next keystream block, at most 2^32 (an invariant). -/
  ccnext : Nat
  /-- CCSTAT.VALID (R51). -/
  ccvalid : Bool
  /-- PR0 to PR3 (R52). -/
  pr : Vector Word 4
  /-- PS0 to PS3 (R53). -/
  ps : Vector Word 4
  /-- ACC (R54): an integer below 2^130 − 5 (an invariant). -/
  acc : Nat
  /-- PSTAT.READY and PSTAT.USED (R55). -/
  pstat : PolyPhase
  /-- The data buffer (R101). -/
  buf : Memory
  /-- MODEL: the implementation parameter BUF_SIZE (R10); no step changes it (DESIGN CHOICE; log 1). -/
  cfg : Config
  /-- MODEL: how many power-ons came before this one, the index of the buffer's power-on draw
  (DESIGN CHOICE; log 3). -/
  powerOns : Nat
  /-- The host port's read data (R61): what the last host read returned; its value before any
  read is a DESIGN CHOICE, unsafe (log 5). -/
  rdata : Word
  /-- MODEL: the turns to come, the first one next (DESIGN CHOICE; log 2). -/
  agenda : List Turn
  deriving DecidableEq, Repr

/-- Why a step stops with a fault: it never does.  A command ends in success or in an error code in
STATUS.ERR, "There is no third outcome" (R400), and a bus error sets STATUS.AERR (R414).  Nobody raises
one; safe. -/
inductive Fault where
  deriving DecidableEq, Repr

/-- Why a step is refused. -/
inductive Refusal where
  /-- Raised by an arm of `exec` whose command has no meaning in the model.  No arm does.  Safe. -/
  | notModelled (mnemonic : String)
  /-- Raised by the host's turn for an access at an offset at or beyond 0x1000 + BUF_SIZE: it does "not
  belong to CTK-CE; the model refuses an access to them" (R102, I10).  Safe. -/
  | outsideWindow
  deriving DecidableEq, Repr

/-- Every register at its reset value (R450, R451), around what a reset does not set: the buffer, the
parameter, the power-on count, the port's read data and the agenda. -/
def State.atReset (buf : Memory) (cfg : Config) (powerOns : Nat) (rdata : Word) (agenda : List Turn) :
    State where
  ie := false
  busy := false
  done := false
  aerr := false
  err := .ok
  lastcmd := 0
  keyLen := 0
  nonceLen := 0
  tagLen := 0
  counter := 0
  src := 0
  dst := 0
  len := 0
  aad := 0
  aadlen := 0
  key := #v[0, 0, 0, 0, 0, 0, 0, 0]
  nonce := #v[0, 0, 0, 0, 0, 0]
  tag := #v[0, 0, 0, 0]
  subkey := #v[0, 0, 0, 0, 0, 0, 0, 0]
  mat := #v[0, 0, 0, 0, 0, 0, 0, 0, 0, 0, 0, 0, 0, 0, 0, 0]
  cckey := #v[0, 0, 0, 0, 0, 0, 0, 0]
  ccnonce := #v[0, 0, 0]
  ccnext := 0
  ccvalid := false
  pr := #v[0, 0, 0, 0]
  ps := #v[0, 0, 0, 0]
  acc := 0
  pstat := .none
  buf := buf
  cfg := cfg
  powerOns := powerOns
  rdata := rdata
  agenda := agenda

/-- The machine right after power-on reset (R450) for any implementation parameter and any agenda: no
buffer byte has been written (R118). -/
def State.powerOnWith (cfg : Config) (agenda : List Turn) : State :=
  State.atReset [] cfg 0 0 agenda

/-- The machine right after power-on reset, with the reference BUF_SIZE of R10 and nothing on the agenda:
"CTK-CE executes nothing until the host issues a command" (R450; DESIGN CHOICE,
log 4). -/
def State.reset : State := State.powerOnWith Config.reference []

end Sys2Proof.Machine
end

