-- ==== Sys2Proof/Machine/Flags.lean ====
section
/-! DEFINITION. The status registers as words, the error code numbers, write-1-to-clear and the interrupt
output (10_state.md R32, R33, R36, R50, R51, R54, R55, R61, R62; 60_exceptions.md R401). -/

namespace Sys2Proof.Machine

/-- The number of an error code (R401). -/
def ErrCode.code : ErrCode → Byte
  | .ok => 0
  | .illegalCmd => 1
  | .invalidKeyLength => 2
  | .invalidNonceLength => 3
  | .invalidTagLength => 4
  | .bufferRange => 5
  | .notInitialised => 6
  | .instanceConsumed => 7
  | .counterOverflow => 8
  | .authenticationFailed => 9

/-- One flag as a 1-bit field. -/
def flagBit (b : Bool) : BitVec 1 := BitVec.ofBool b

/-- CTRL as it reads (R32): IE in bit 0; SRST and the reserved bits read 0. -/
def State.ctrlWord (s : State) : Word := (0 : BitVec 31) ++ flagBit s.ie

/-- STATUS as it reads (R33): BUSY, DONE, AERR in bits 0 to 2, ERR in bits 15:8, the rest 0. -/
def State.statusWord (s : State) : Word :=
  (0 : BitVec 16) ++ s.err.code ++ (0 : BitVec 5) ++ flagBit s.aerr ++ flagBit s.done ++ flagBit s.busy

/-- LENCFG as it reads (R36): KEY_LEN, NONCE_LEN, TAG_LEN from bit 0 up; bits 31:24 read 0. -/
def State.lencfgWord (s : State) : Word := (0 : Byte) ++ s.tagLen ++ s.nonceLen ++ s.keyLen

/-- CCCTR as it reads: `CCNEXT mod 2^32` (R50). -/
def State.ccctrWord (s : State) : Word := BitVec.ofNat 32 s.ccnext

/-- CCSTAT.EXH: 1 exactly when CCNEXT = 2^32 (R51). -/
def State.exhausted (s : State) : Bool := s.ccnext == 2 ^ 32

/-- CCSTAT as it reads (R51): VALID in bit 0, EXH in bit 1. -/
def State.ccstatWord (s : State) : Word := (0 : BitVec 30) ++ flagBit s.exhausted ++ flagBit s.ccvalid

/-- ACC_i as it reads: `(ACC >> 32i) mod 2^32` (R54). -/
def State.accWord (s : State) (i : Fin 5) : Word := BitVec.ofNat 32 (s.acc / 2 ^ (32 * i.val))

/-- PSTAT.READY (R55). -/
def State.ready (s : State) : Bool := s.pstat == .ready

/-- PSTAT.USED (R55). -/
def State.used (s : State) : Bool := s.pstat == .used

/-- PSTAT as it reads (R55): READY in bit 0, USED in bit 1. -/
def State.pstatWord (s : State) : Word := (0 : BitVec 30) ++ flagBit s.used ++ flagBit s.ready

/-- A host write to STATUS: DONE and AERR are write-1-to-clear, every other bit is ignored (R33). -/
def State.writeStatus (s : State) (v : Word) : State :=
  { s with done := s.done && !v.getLsbD 1, aerr := s.aerr && !v.getLsbD 2 }

/-- A host write to LENCFG: the three fields are stored, bits 31:24 ignored (R36). -/
def State.writeLencfg (s : State) (v : Word) : State :=
  { s with keyLen := v.extractLsb' 0 8, nonceLen := v.extractLsb' 8 8, tagLen := v.extractLsb' 16 8 }

/-- The interrupt output `IRQ = CTRL.IE ∧ STATUS.DONE` (R61, R415). -/
def State.irq (s : State) : Bool := s.ie && s.done

end Sys2Proof.Machine
end

