-- ==== Sys2Proof/Machine/Ops.lean ====
section
/-! DEFINITION. The shared operations: the data buffer, issue, the checks of a command, its completion with
or without an error, and reset (20_memory.md R101 to R107, R118; 60_exceptions.md R402 to R404, R418, R419;
70_reset_and_hazards.md R450 to R453). -/

namespace Sys2Proof.Machine

/-! ### The data buffer -/

/-- The canonical form of the buffer: addresses strictly rising, every one below BUF_SIZE (R101).  No entry
equals what an unlisted address holds, since an unlisted address holds no written byte (DESIGN CHOICE, safe;
log 3). -/
abbrev Memory.Wf (bufSize : Nat) (m : Memory) : Prop :=
  m.Pairwise (fun c d => c.1 < d.1) ∧ ∀ c ∈ m, c.1 < bufSize

/-- The byte written at an address since power-on, if any.  THIS is what an unlisted address reads as at
the level of the list: nothing. -/
def Memory.find : Memory → Nat → Option Byte
  | [], _ => none
  | c :: m, a => if c.1 = a then some c.2 else Memory.find m a

/-- `BUF[a] <- v`, keeping the addresses rising. -/
def Memory.put : Memory → Nat → Byte → Memory
  | [], a, v => [(a, v)]
  | c :: m, a, v =>
    if a < c.1 then (a, v) :: c :: m
    else if c.1 = a then (a, v) :: m
    else c :: Memory.put m a v

/-- `BUF[a+k] <- B[k]` for every byte of B. -/
def Memory.putBytes (m : Memory) (a : Nat) : List Byte → Memory
  | [] => m
  | b :: bs => Memory.putBytes (m.put a b) (a + 1) bs

/-- `BUF[a]`: the byte written there since power-on, else its power-on draw (R118). -/
def State.readByte (s : State) (a : Nat) : Byte :=
  (s.buf.find a).getD (Config.powerOnByte s.powerOns a)

/-- `MemRead(a, n)`: the bytes `BUF[a..a+n)` (R17). -/
def State.memRead (s : State) (a : Nat) : Nat → List Byte
  | 0 => []
  | n + 1 => s.readByte a :: State.memRead s (a + 1) n

/-- `MemWrite(a, |B|, B)` (R17). -/
def State.memWrite (s : State) (a : Nat) (B : List Byte) : State :=
  { s with buf := s.buf.putBytes a B }

/-- A region is in range when `a + n ≤ BUF_SIZE`, an unbounded sum (R106). -/
def State.inRange (s : State) (a n : Nat) : Bool := decide (a + n ≤ s.cfg.bufSize)

/-! ### Issue -/

/-- The issue of command `w` (R34): "STATUS.AERR is unchanged by issue". -/
def State.issue (s : State) (w : Word) : State :=
  { s with lastcmd := w, busy := true, done := false, err := .ok }

/-! ### Completion -/

/-- The status part of every completion (R403): BUSY <- 0, DONE <- 1, ERR <- e; AERR unchanged. -/
def State.finish (s : State) (e : ErrCode) : State :=
  { s with busy := false, done := true, err := e }

/-- TAKING AN ERROR ("Trap entry", R418; R404): the code goes to STATUS.ERR, LASTCMD keeps the failing word,
nothing else changes.  There is no saved pc, mode or vector (R110, R418), and no command that returns from
an error (R419): the engine is idle and takes the next command. -/
def State.completeError (s : State) (e : ErrCode) : State := s.finish e

/-- One check of a command: whether it passes in a state, and the code it gives if it does not. -/
abbrev Check := (State → Bool) × ErrCode

/-- The first failing check gives the code; `ok` if all pass (R402). -/
def firstError (s : State) : List Check → ErrCode
  | [] => .ok
  | c :: cs => if c.1 s then firstError s cs else c.2

/-- The completion of a command (R403): if every check passes, its effect and ERR = 0; otherwise the first
failing code and nothing else (R404).  The effect is a function of the state before it, so every input is
read before any output is written (R107). -/
def complete (checks : List Check) (effect : State → State) (s : State) :
    Host.Outcome State Fault Refusal :=
  .next (match firstError s checks with
    | .ok => (effect s).finish .ok
    | e => s.completeError e)

/-! ### The checks (R402, R405 to R413), each with its code -/

/-- KEY_LEN = 32, else INVALID_KEY_LENGTH (R406, R148). -/
def chkKey : Check := (fun s => s.keyLen == 32, .invalidKeyLength)

/-- NONCE_LEN = n, else INVALID_NONCE_LENGTH (R407, R148). -/
def chkNonce (n : Byte) : Check := (fun s => s.nonceLen == n, .invalidNonceLength)

/-- TAG_LEN = 16, else INVALID_TAG_LENGTH (R408). -/
def chkTagLen : Check := (fun s => s.tagLen == 16, .invalidTagLength)

/-- Region (SRC, LEN) in range, else BUFFER_RANGE (R409). -/
def chkSrc : Check := (fun s => s.inRange s.src.toNat s.len.toNat, .bufferRange)

/-- Region (DST, LEN) in range, else BUFFER_RANGE (R409). -/
def chkDst : Check := (fun s => s.inRange s.dst.toNat s.len.toNat, .bufferRange)

/-- Region (DST, 64) in range, else BUFFER_RANGE (R409). -/
def chkDstBlock : Check := (fun s => s.inRange s.dst.toNat 64, .bufferRange)

/-- Region (AAD, AADLEN) in range, else BUFFER_RANGE (R409). -/
def chkAad : Check := (fun s => s.inRange s.aad.toNat s.aadlen.toNat, .bufferRange)

/-- CCSTAT.VALID = 1, else NOT_INITIALISED (R410). -/
def chkValid : Check := (fun s => s.ccvalid, .notInitialised)

/-- CCNEXT + nb ≤ 2^32 for the nb blocks the command needs, else COUNTER_OVERFLOW (R223, R412). -/
def chkCounter (nb : State → Nat) : Check := (fun s => decide (s.ccnext + nb s ≤ 2 ^ 32), .counterOverflow)

/-- ceil(LEN/64) ≤ 2^32 − 1, else COUNTER_OVERFLOW: the AEAD body starts at counter 1 (R306, R412). -/
def chkBody : Check := (fun s => decide (ceilDiv s.len.toNat 64 ≤ 2 ^ 32 - 1), .counterOverflow)

/-- PSTAT.USED = 0, else INSTANCE_CONSUMED (R411). -/
def chkUnused : Check := (fun s => !s.used, .instanceConsumed)

/-- PSTAT.READY = 1, else NOT_INITIALISED (R410). -/
def chkReady : Check := (fun s => s.ready, .notInitialised)

/-! ### Reset -/

/-- Soft reset (R452, R453): every register at its reset value, the buffer unchanged, a pending command
cancelled.  The port's read data is no register and stays (DESIGN CHOICE, unsafe;
log 5). -/
def State.softReset (s : State) : State :=
  State.atReset s.buf s.cfg s.powerOns s.rdata s.agenda

/-- Power-on reset of a machine that has run (R450): every register at its reset value, no buffer byte
written since (R118), so every byte is a new draw. -/
def State.powerOn (s : State) : State :=
  State.atReset [] s.cfg (s.powerOns + 1) 0 s.agenda

/-- A host write to CTRL (R32): SRST = 1 resets and discards the IE bit of the same write. -/
def State.writeCtrl (s : State) (v : Word) : State :=
  if v.getLsbD 1 then s.softReset else { s with ie := v.getLsbD 0 }

end Sys2Proof.Machine
end

