-- ==== Sys2Proof/Machine/Permutation.lean ====
section
/-! DEFINITION. The commands on the working matrix STATE (40_chacha20_core.md Part 2, R212 to R219). -/

namespace Sys2Proof.Machine

/-- The indices of QR are pairwise distinct, else ILLEGAL_CMD (R142, R212; log 8). -/
def chkDistinct (a b c d : Fin 16) : Check := (fun _ => indicesDistinct a b c d, .illegalCmd)

/-- Replace STATE by a function of it. -/
def State.mapMatrix (f : Vector Word 16 → Vector Word 16) (s : State) : State := { s with mat := f s.mat }

/-- NONCE0 to NONCE2, a 12-byte nonce (R44). -/
def State.nonce12 (s : State) : Vector Word 3 := #v[s.nonce[0], s.nonce[1], s.nonce[2]]

/-- NONCE0 to NONCE3, a 16-byte nonce (R44). -/
def State.nonce16 (s : State) : Vector Word 4 := #v[s.nonce[0], s.nonce[1], s.nonce[2], s.nonce[3]]

/-- QR a, b, c, d (R212). -/
def execQr (a b c d : Fin 16) (s : State) : Host.Outcome State Fault Refusal :=
  complete [chkDistinct a b c d] (State.mapMatrix fun X => qrx X a b c d) s

/-- COLRND (R213). -/
def execColrnd (s : State) : Host.Outcome State Fault Refusal :=
  complete [] (State.mapMatrix columnRound) s

/-- DIAGRND (R214). -/
def execDiagrnd (s : State) : Host.Outcome State Fault Refusal :=
  complete [] (State.mapMatrix diagonalRound) s

/-- DBLRND (R215). -/
def execDblrnd (s : State) : Host.Outcome State Fault Refusal :=
  complete [] (State.mapMatrix doubleRound) s

/-- PERM20 (R216): no feed-forward. -/
def execPerm20 (s : State) : Host.Outcome State Fault Refusal :=
  complete [] (State.mapMatrix permute) s

/-- CORE20 (R217): the feed-forward adds the matrix as it was before the command. -/
def execCore20 (s : State) : Host.Outcome State Fault Refusal :=
  complete [] (State.mapMatrix coreBlock) s

/-- STLD_CC (R218). -/
def execStldCc (s : State) : Host.Outcome State Fault Refusal :=
  complete [chkKey, chkNonce 12] (fun s => { s with mat := initCc s.key s.counter s.nonce12 }) s

/-- STLD_HC (R219): COUNTER is not read. -/
def execStldHc (s : State) : Host.Outcome State Fault Refusal :=
  complete [chkKey, chkNonce 16] (fun s => { s with mat := initHc s.key s.nonce16 }) s

end Sys2Proof.Machine
end

