-- ==== Sys2Proof/Machine/Aead.lean ====
section
/-! DEFINITION. The AEAD commands (42_aead.md Part 2, R308, R309) over the shared operations of both AEAD
pairs: each works on private state and changes neither context, STATE nor SUBKEY. -/

namespace Sys2Proof.Machine

/-- The associated data `BUF[AAD..AAD+AADLEN)`. -/
def State.aadBytes (s : State) : List Byte := s.memRead s.aad.toNat s.aadlen.toNat

/-- The input message `BUF[SRC..SRC+LEN)`. -/
def State.srcBytes (s : State) : List Byte := s.memRead s.src.toNat s.len.toNat

/-- The supplied tag `SERW([TAG0..TAG3])` (R309). -/
def State.tagBytes (s : State) : List Byte := serW s.tag.toList

/-- The checks of an AEAD command after its length checks: the three regions, then the body's counter
(R308, R309, R364, R365). -/
def aeadRegionChecks : List Check := [chkAad, chkSrc, chkDst, chkBody]

/-- Seal the message under a key and a nonce: the ciphertext to DST, the tag to TAG0-3 (R308, R364). -/
def sealEffect (kw : Vector Word 8) (nw : Vector Word 3) (s : State) : State :=
  let out := sealMessage kw nw s.srcBytes s.aadBytes
  { s.memWrite s.dst.toNat out.1 with tag := tagWords out.2 }

/-- What OPEN gives for the message, the associated data and the supplied tag (R305, R309). -/
def openResult (kw : Vector Word 8) (nw : Vector Word 3) (s : State) : Option (List Byte) :=
  openMessage kw nw s.srcBytes s.aadBytes s.tagBytes

/-- Write the plaintext to DST; a failed OPEN writes nothing (R309, R310). -/
def openEffect (kw : Vector Word 8) (nw : Vector Word 3) (s : State) : State :=
  match openResult kw nw s with
  | some P => s.memWrite s.dst.toNat P
  | none => s

/-- The key and nonce of ChaCha20-Poly1305: KEY0-7 and NONCE0-2 (R308). -/
def State.aeadKeys (s : State) : Vector Word 8 × Vector Word 3 := (s.key, s.nonce12)

/-- The tags agree, else AUTHENTICATION_FAILED (R309, R413). -/
def chkAuth (keys : State → Vector Word 8 × Vector Word 3) : Check :=
  (fun s => (openResult (keys s).1 (keys s).2 s).isSome, .authenticationFailed)

/-- AEAD_ENC (R308): TAG_LEN is not checked. -/
def execAeadEnc (s : State) : Host.Outcome State Fault Refusal :=
  complete ([chkKey, chkNonce 12] ++ aeadRegionChecks)
    (fun s => sealEffect s.aeadKeys.1 s.aeadKeys.2 s) s

/-- AEAD_DEC (R309). -/
def execAeadDec (s : State) : Host.Outcome State Fault Refusal :=
  complete ([chkKey, chkNonce 12, chkTagLen] ++ aeadRegionChecks ++ [chkAuth State.aeadKeys])
    (fun s => openEffect s.aeadKeys.1 s.aeadKeys.2 s) s

end Sys2Proof.Machine
end

