-- ==== Sys2Proof/Machine/HChaCha.lean ====
section
/-! DEFINITION. The HChaCha20 command (43_hchacha20.md R342). -/

namespace Sys2Proof.Machine

/-- HCHACHA (R342): COUNTER, NONCE4, NONCE5, the ChaCha20 context and STATE are neither read nor changed. -/
def execHchacha (s : State) : Host.Outcome State Fault Refusal :=
  complete [chkKey, chkNonce 16] (fun s => { s with subkey := hchacha20 s.key s.nonce16 }) s

end Sys2Proof.Machine
end

