-- ==== Sys2Proof/Machine/Poly1305.lean ====
section
/-! DEFINITION. The commands on the Poly1305 context (41_poly1305.md Part 2, R269, R270). -/

namespace Sys2Proof.Machine

/-- The effect of P_INIT: r clamped from KEY0-3, s from KEY4-7, ACC <- 0, state READY (R269). -/
def pInitEffect (s : State) : State :=
  { s with
    pr := clampWords s.key
    ps := #v[s.key[4], s.key[5], s.key[6], s.key[7]]
    acc := 0
    pstat := .ready }

/-- P_INIT (R269). -/
def execPInit (s : State) : Host.Outcome State Fault Refusal :=
  complete [chkKey] pInitEffect s

/-- The effect of P_TAG: the accumulator after the message, the tag, state USED (R270). -/
def pTagEffect (s : State) : State :=
  let acc := polyAcc (wordsInt s.pr.toList) s.acc (s.memRead s.src.toNat s.len.toNat)
  { s with
    acc := acc
    tag := tagWords (polyTag acc (wordsInt s.ps.toList))
    pstat := .used }

/-- P_TAG (R270): INSTANCE_CONSUMED on USED, NOT_INITIALISED on NONE. -/
def execPTag (s : State) : Host.Outcome State Fault Refusal :=
  complete [chkSrc, chkUnused, chkReady] pTagEffect s

end Sys2Proof.Machine
end

