-- ==== Sys2Proof/Machine/Stream.lean ====
section
/-! DEFINITION. The commands on the ChaCha20 context (40_chacha20_core.md Part 3, R220 to R223). -/

namespace Sys2Proof.Machine

/-- Load the ChaCha20 context: a key, a nonce and the counter in COUNTER; VALID <- 1 (R220, R362). -/
def State.loadContext (kw : Vector Word 8) (nw : Vector Word 3) (s : State) : State :=
  { s with cckey := kw, ccnonce := nw, ccnext := s.counter.toNat, ccvalid := true }

/-- CC_INIT (R220). -/
def execCcInit (s : State) : Host.Outcome State Fault Refusal :=
  complete [chkKey, chkNonce 12] (fun s => s.loadContext s.key s.nonce12) s

/-- The effect of CC_BLOCK: one keystream block at DST, CCNEXT + 1 (R221). -/
def ccBlockEffect (s : State) : State :=
  { s.memWrite s.dst.toNat (keystreamBlock s.cckey (BitVec.ofNat 32 s.ccnext) s.ccnonce) with
    ccnext := s.ccnext + 1 }

/-- CC_BLOCK (R221). -/
def execCcBlock (s : State) : Host.Outcome State Fault Refusal :=
  complete [chkDstBlock, chkValid, chkCounter fun _ => 1] ccBlockEffect s

/-- The effect of CC_XOR: the message XORed with keystream at DST, CCNEXT past its blocks (R222). -/
def ccXorEffect (s : State) : State :=
  let out := xorKs s.cckey s.ccnonce s.ccnext (s.memRead s.src.toNat s.len.toNat)
  { s.memWrite s.dst.toNat out.1 with ccnext := out.2 }

/-- CC_XOR (R222). -/
def execCcXor (s : State) : Host.Outcome State Fault Refusal :=
  complete [chkSrc, chkDst, chkValid, chkCounter fun s => ceilDiv s.len.toNat 64] ccXorEffect s

end Sys2Proof.Machine
end

