-- ==== Sys2Proof/Machine/XChaCha.lean ====
section
/-! DEFINITION. The XChaCha20 commands (44_xchacha20.md R362 to R365): the ChaCha20 ones under a derived key and
nonce. -/

namespace Sys2Proof.Machine

/-- The derived key and nonce of the 24-byte nonce NONCE0-5 (R361). -/
def State.xKeys (s : State) : Vector Word 8 × Vector Word 3 := xDerive s.key s.nonce

/-- XC_INIT (R362): SUBKEY0-7 are not written. -/
def execXcInit (s : State) : Host.Outcome State Fault Refusal :=
  complete [chkKey, chkNonce 24] (fun s => s.loadContext s.xKeys.1 s.xKeys.2) s

/-- XAEAD_ENC (R364). -/
def execXaeadEnc (s : State) : Host.Outcome State Fault Refusal :=
  complete ([chkKey, chkNonce 24] ++ aeadRegionChecks)
    (fun s => sealEffect s.xKeys.1 s.xKeys.2 s) s

/-- XAEAD_DEC (R365). -/
def execXaeadDec (s : State) : Host.Outcome State Fault Refusal :=
  complete ([chkKey, chkNonce 24, chkTagLen] ++ aeadRegionChecks ++ [chkAuth State.xKeys])
    (fun s => openEffect s.xKeys.1 s.xKeys.2 s) s

end Sys2Proof.Machine
end

