-- ==== Sys2Proof/Machine/Dispatch.lean ====
section
/-! DEFINITION. The completion of a legal command (60_exceptions.md R403): one arm per command of
30_encoding.md R144, each a call of its meaning. -/

namespace Sys2Proof.Machine

def exec (i : Instr) (s : State) : Host.Outcome State Fault Refusal :=
  match i with
  | .qr a b c d => Sys2Proof.Machine.execQr a b c d s
  | .colrnd => Sys2Proof.Machine.execColrnd s
  | .diagrnd => Sys2Proof.Machine.execDiagrnd s
  | .dblrnd => Sys2Proof.Machine.execDblrnd s
  | .perm20 => Sys2Proof.Machine.execPerm20 s
  | .core20 => Sys2Proof.Machine.execCore20 s
  | .stldCc => Sys2Proof.Machine.execStldCc s
  | .stldHc => Sys2Proof.Machine.execStldHc s
  | .ccInit => Sys2Proof.Machine.execCcInit s
  | .ccBlock => Sys2Proof.Machine.execCcBlock s
  | .ccXor => Sys2Proof.Machine.execCcXor s
  | .pInit => Sys2Proof.Machine.execPInit s
  | .pTag => Sys2Proof.Machine.execPTag s
  | .aeadEnc => Sys2Proof.Machine.execAeadEnc s
  | .aeadDec => Sys2Proof.Machine.execAeadDec s
  | .hchacha => Sys2Proof.Machine.execHchacha s
  | .xcInit => Sys2Proof.Machine.execXcInit s
  | .xaeadEnc => Sys2Proof.Machine.execXaeadEnc s
  | .xaeadDec => Sys2Proof.Machine.execXaeadDec s

end Sys2Proof.Machine
end

