-- ==== Sys2Proof/Machine/Port.lean ====
section
/-! DEFINITION. The host port: the register map and what a host read and write do (10_state.md R31 to R57, R60;
20_memory.md R102 to R105). -/

namespace Sys2Proof.Machine

/-- The registers of the map of R56, each by its name; an index is the number in the name. -/
inductive Reg where
  | id | ctrl | status | cmd | lastcmd | lencfg | counter | src | dst | len | aad | aadlen
  | key (i : Fin 8) | nonce (i : Fin 6) | tag (i : Fin 4) | subkey (i : Fin 8) | mat (i : Fin 16)
  | cckey (i : Fin 8) | ccnonce (i : Fin 3) | ccctr | ccstat
  | pr (i : Fin 4) | ps (i : Fin 4) | acc (i : Fin 5) | pstat
  deriving DecidableEq, Repr

/-- The offset of a register in the window (R31 to R56). -/
def Reg.offset : Reg → Nat
  | .id => 0x000
  | .ctrl => 0x004
  | .status => 0x008
  | .cmd => 0x00C
  | .lastcmd => 0x010
  | .lencfg => 0x014
  | .counter => 0x018
  | .src => 0x020
  | .dst => 0x024
  | .len => 0x028
  | .aad => 0x02C
  | .aadlen => 0x030
  | .key i => 0x040 + 4 * i.val
  | .nonce i => 0x060 + 4 * i.val
  | .tag i => 0x080 + 4 * i.val
  | .subkey i => 0x0A0 + 4 * i.val
  | .mat i => 0x0C0 + 4 * i.val
  | .cckey i => 0x100 + 4 * i.val
  | .ccnonce i => 0x120 + 4 * i.val
  | .ccctr => 0x12C
  | .ccstat => 0x130
  | .pr i => 0x140 + 4 * i.val
  | .ps i => 0x150 + 4 * i.val
  | .acc i => 0x160 + 4 * i.val
  | .pstat => 0x174

/-- Every register of the map (R56). -/
def Reg.all : List Reg :=
  [.id, .ctrl, .status, .cmd, .lastcmd, .lencfg, .counter, .src, .dst, .len, .aad, .aadlen] ++
  ([0, 1, 2, 3, 4, 5, 6, 7].map Reg.key) ++
  ([0, 1, 2, 3, 4, 5].map Reg.nonce) ++
  ([0, 1, 2, 3].map Reg.tag) ++
  ([0, 1, 2, 3, 4, 5, 6, 7].map Reg.subkey) ++
  ([0, 1, 2, 3, 4, 5, 6, 7, 8, 9, 10, 11, 12, 13, 14, 15].map Reg.mat) ++
  ([0, 1, 2, 3, 4, 5, 6, 7].map Reg.cckey) ++
  ([0, 1, 2].map Reg.ccnonce) ++
  [.ccctr, .ccstat] ++
  ([0, 1, 2, 3].map Reg.pr) ++
  ([0, 1, 2, 3].map Reg.ps) ++
  ([0, 1, 2, 3, 4].map Reg.acc) ++
  [.pstat]

/-- The register at an offset; none at a reserved one (R56). -/
def Reg.ofOffset (off : Nat) : Option Reg := Reg.all.find? (fun r => r.offset == off)

/-- The fixed value of ID: "CTK", revision 1 (R31). -/
def idWord : Word := 0x43544B01

/-- What a register reads as when the engine is idle (R31 to R55); a read of CMD gives 0 (R34). -/
def State.readReg (s : State) : Reg → Word
  | .id => idWord
  | .ctrl => s.ctrlWord
  | .status => s.statusWord
  | .cmd => 0
  | .lastcmd => s.lastcmd
  | .lencfg => s.lencfgWord
  | .counter => s.counter
  | .src => s.src
  | .dst => s.dst
  | .len => s.len
  | .aad => s.aad
  | .aadlen => s.aadlen
  | .key i => s.key[i]
  | .nonce i => s.nonce[i]
  | .tag i => s.tag[i]
  | .subkey i => s.subkey[i]
  | .mat i => s.mat[i]
  | .cckey i => s.cckey[i]
  | .ccnonce i => s.ccnonce[i]
  | .ccctr => s.ccctrWord
  | .ccstat => s.ccstatWord
  | .pr i => s.pr[i]
  | .ps i => s.ps[i]
  | .acc i => s.accWord i
  | .pstat => s.pstatWord

/-- What a performed host write to a register does (R57): the read-only ones ignore it, CMD issues (R34),
CTRL and STATUS act on their bits (R32, R33). -/
def State.writeReg (s : State) (r : Reg) (v : Word) : State :=
  match r with
  | .id => s
  | .ctrl => s.writeCtrl v
  | .status => s.writeStatus v
  | .cmd => s.issue v
  | .lastcmd => s
  | .lencfg => s.writeLencfg v
  | .counter => { s with counter := v }
  | .src => { s with src := v }
  | .dst => { s with dst := v }
  | .len => { s with len := v }
  | .aad => { s with aad := v }
  | .aadlen => { s with aadlen := v }
  | .key i => { s with key := s.key.set i v }
  | .nonce i => { s with nonce := s.nonce.set i v }
  | .tag i => { s with tag := s.tag.set i v }
  | .subkey _ => s
  | .mat i => { s with mat := s.mat.set i v }
  | .cckey _ => s
  | .ccnonce _ => s
  | .ccctr => s
  | .ccstat => s
  | .pr _ => s
  | .ps _ => s
  | .acc _ => s
  | .pstat => s

/-- BUF_BASE, the offset of the buffer window (R102). -/
def bufBase : Nat := 0x1000

/-- The first offset beyond the window (R102). -/
def State.windowEnd (s : State) : Nat := bufBase + s.cfg.bufSize

/-- The registers whose reads are answered in the busy window (R60). -/
def readableWhileBusy (off : Nat) : Bool :=
  off == Reg.id.offset || off == Reg.ctrl.offset || off == Reg.status.offset

/-- The registers whose writes are performed in the busy window (R60). -/
def writableWhileBusy (off : Nat) : Bool := off == Reg.ctrl.offset || off == Reg.status.offset

/-- The word an aligned 32-bit read in the window returns (R56, R60, R105). -/
def State.portRead (s : State) (off : Nat) : Word :=
  if s.busy && !readableWhileBusy off then 0
  else if off < bufBase then
    match Reg.ofOffset off with
    | some r => s.readReg r
    | none => 0
  else le32 (s.memRead (off - bufBase) 4) 0

/-- What an aligned 32-bit write in the window does (R56, R57, R60, R105).  In the busy window R60's "any other
offset" is taken to hold read-only and reserved offsets too (DEDUCED, unsafe; log 6). -/
def State.portWrite (s : State) (off : Nat) (v : Word) : State :=
  if s.busy && !writableWhileBusy off then { s with aerr := true }
  else if off < bufBase then
    match Reg.ofOffset off with
    | some r => s.writeReg r v
    | none => s
  else s.memWrite (off - bufBase) (ser32 v)

/-- The offset of an access. -/
def HostAccess.offset : HostAccess → Nat
  | .read _ off => off
  | .write _ off _ => off

/-- The width of an access, in bits. -/
def HostAccess.width : HostAccess → Nat
  | .read w _ => w
  | .write w _ _ => w

/-- An access the port performs: 32 bits wide at a multiple of 4 (R103). -/
def HostAccess.performed (a : HostAccess) : Bool := a.width == 32 && a.offset % 4 == 0

/-- A read returns its word on the port. -/
def State.answer (s : State) (v : Word) : State := { s with rdata := v }

/-- One host access (R102 to R105): refused beyond the window, whatever its width (DEDUCED, safe; log 7); not
performed, with AERR set and a read giving 0, if it is not an aligned 32-bit one; otherwise read or written. -/
def hostAccess (a : HostAccess) (s : State) : Host.Outcome State Fault Refusal :=
  if s.windowEnd ≤ a.offset then .refused .outsideWindow
  else if a.performed then
    match a with
    | .read _ off => .next (s.answer (s.portRead off))
    | .write _ off v => .next (s.portWrite off v)
  else
    match a with
    | .read _ _ => .next ({ s with aerr := true }.answer 0)
    | .write _ _ _ => .next { s with aerr := true }

end Sys2Proof.Machine
end

