-- ==== Sys2Proof/Machine/Engine.lean ====
section
/-! DEFINITION. The engine's turn (60_exceptions.md R403): the completion of the outstanding command. -/

namespace Sys2Proof.Machine

/-- The completion of the command in LASTCMD (R403): an illegal word completes with ILLEGAL_CMD and changes
nothing else (R145, R405; log 8). -/
def completion (s : State) : Host.Outcome State Fault Refusal :=
  match decode s.lastcmd with
  | .ok i => exec i s
  | .error _ => .next (s.completeError .illegalCmd)

/-- The engine's turn: enabled exactly when STATUS.BUSY = 1 (R403); otherwise it keeps all its state
(R426).  The guard stands here and not in `exec` (log 8). -/
def engineTurn (s : State) : Host.Outcome State Fault Refusal :=
  if s.busy then completion s else .next s

end Sys2Proof.Machine
end

