-- ==== Sys2Proof/Machine/Step.lean ====
section
/-! DEFINITION. One step of CTK-CE: the next turn of the agenda (20_memory.md R100, R112).  CTK-CE has no
program counter and fetches nothing (10_state.md R59, R116): its next command is the word of the last
issue, in LASTCMD. -/

namespace Sys2Proof.Machine

/-- One step: the first turn of the agenda, taken off it (DESIGN CHOICE, log 2).  With nothing on the agenda the host does nothing,
and the engine completes the outstanding command, if any (R466: every issued command completes). -/
def step (s : State) : Host.Outcome State Fault Refusal :=
  match s.agenda with
  | [] => engineTurn s
  | .host a :: rest => hostAccess a { s with agenda := rest }
  | .engine :: rest => engineTurn { s with agenda := rest }
  | .powerOn :: rest => .next { s with agenda := rest }.powerOn

/-- `s` with a command word issued (R34) and the engine to move next, so that the next step completes
exactly that command (log 4).  The bits above `nbits` are 0; a command is one 32-bit word (R140). -/
def State.withFetchWord (s : State) (nbits w : Nat) : State :=
  { s.issue (BitVec.ofNat 32 (w % 2 ^ nbits)) with agenda := .engine :: s.agenda }

end Sys2Proof.Machine
end

