-- ==== Sys2Proof/Safety.lean ====
section
/-! DEFINITION. What every reachable state of CTK-CE keeps, and reachability, in the terms the statements use. -/

namespace Sys2Proof.Machine

/-- The words of r are clamped (R262): the bits the clamp clears are 0. -/
abbrev Clamped (r : Vector Word 4) : Prop :=
  r[0] &&& 0x0fffffff = r[0] ∧ r[1] &&& 0x0ffffffc = r[1] ∧
  r[2] &&& 0x0ffffffc = r[2] ∧ r[3] &&& 0x0ffffffc = r[3]

/-- The invariant of the machine. -/
structure Inv (s : State) : Prop where
  /-- BUF_SIZE is a legal parameter (R10). -/
  legal : s.cfg.Legal
  /-- The buffer is in canonical form and has no byte beyond BUF_SIZE (R101). -/
  buf_wf : s.buf.Wf s.cfg.bufSize
  /-- While a command is outstanding, DONE = 0 and ERR = 0 (R34, R403). -/
  busy_clear : s.busy = true → s.done = false ∧ s.err = .ok
  /-- 0 ≤ CCNEXT ≤ 2^32 (R50). -/
  ccnext_le : s.ccnext ≤ 2 ^ 32
  /-- 0 ≤ ACC < 2^130 − 5 (R54). -/
  acc_lt : s.acc < polyP
  /-- PR holds a clamped r (R52). -/
  pr_clamped : Clamped s.pr
  /-- ACC = 0 unless a message has been authenticated (R54, R269). -/
  acc_zero : s.pstat ≠ .used → s.acc = 0
  /-- With no ChaCha20 context the context registers are 0 (R48 to R51: only CC_INIT and XC_INIT write them). -/
  no_context : s.ccvalid = false →
    s.cckey = #v[0, 0, 0, 0, 0, 0, 0, 0] ∧ s.ccnonce = #v[0, 0, 0] ∧ s.ccnext = 0
  /-- With no Poly1305 context PR and PS are 0 (R52, R53: only P_INIT writes them). -/
  no_poly : s.pstat = .none → s.pr = #v[0, 0, 0, 0] ∧ s.ps = #v[0, 0, 0, 0]

/-- The states a machine with a legal parameter reaches from power-on reset, whatever the agenda. -/
inductive Reachable : State → Prop where
  | powerOn (cfg : Config) (agenda : List Turn) (h : cfg.Legal) : Reachable (State.powerOnWith cfg agenda)
  | step {s t : State} (hs : Reachable s) (h : step s = .next t) : Reachable t

/-- The engine moves next: it heads the agenda, with `rest` after it, or nothing is on the agenda. -/
abbrev EngineNext (s : State) (rest : List Turn) : Prop :=
  s.agenda = .engine :: rest ∨ (s.agenda = [] ∧ rest = [])

/-- One step from s to t completes the command i with success (R403, R400). -/
def Completes (i : Instr) (s t : State) : Prop :=
  (∃ rest, EngineNext s rest) ∧ s.busy = true ∧ decode s.lastcmd = .ok i ∧ step s = .next t ∧ t.err = .ok

/-- n steps, stopping at the first refusal. -/
def runSteps : Nat → State → Host.Outcome State Fault Refusal
  | 0, s => .next s
  | n + 1, s =>
    match step s with
    | .next t => runSteps n t
    | .fault r => .fault r
    | .refused r => .refused r

end Sys2Proof.Machine
end

