-- ==== Sys2Proof/Certificates/Slice0/Obligations.lean ====
section
/-! DEFINITION. The statements for the provers, with the predicates they are written in.  Nothing is proved
here. -/

open Sys2Proof Sys2Proof.Machine

namespace Sys2Proof.Claims

/-- `s` with the status part of a successful completion (R403) and nothing else changed. -/
abbrev done (s : State) : State := { s with busy := false, done := true, err := .ok }

/-- `s` with the status part of an error completion (R404) and nothing else changed. -/
abbrev failed (s : State) (e : ErrCode) : State := { s with busy := false, done := true, err := e }

/-- The reserved opcodes as the ranges of R145. -/
def ReservedOpcode (op : Nat) : Prop :=
  op ≤ 0x0F ∨ (0x18 ≤ op ∧ op ≤ 0x1F) ∨ (0x23 ≤ op ∧ op ≤ 0x2F) ∨ (0x32 ≤ op ∧ op ≤ 0x3F) ∨
  (0x42 ≤ op ∧ op ≤ 0x4F) ∨ (0x51 ≤ op ∧ op ≤ 0x5F) ∨ (0x63 ≤ op ∧ op ≤ 0xFF)

/-- Nibble k of a word, counted from bit 8 (R140: QA, QB, QC, QD). -/
def index (w : Word) (k : Nat) : Nat := w.toNat / 2 ^ (8 + 4 * k) % 16

/-- An illegal command word in the words of R405. -/
def IllegalWord (w : Word) : Prop :=
  ReservedOpcode (w.toNat % 2 ^ 8) ∨ w.toNat / 2 ^ 24 ≠ 0 ∨
  (w.toNat % 2 ^ 8 ≠ 0x10 ∧ w.toNat / 2 ^ 8 % 2 ^ 16 ≠ 0) ∨
  (w.toNat % 2 ^ 8 = 0x10 ∧
    ¬(index w 0 ≠ index w 1 ∧ index w 0 ≠ index w 2 ∧ index w 0 ≠ index w 3 ∧
      index w 1 ≠ index w 2 ∧ index w 1 ≠ index w 3 ∧ index w 2 ≠ index w 3))

/-- The key and nonce words of ChaCha20-Poly1305 (R308). -/
def chachaKeys (s : State) : Vector Word 8 × Vector Word 3 := (s.key, #v[s.nonce[0], s.nonce[1], s.nonce[2]])

/-- The derived key and nonce words of XChaCha20 (R360, R361). -/
def xchachaKeys (s : State) : Vector Word 8 × Vector Word 3 :=
  (hchacha20 s.key #v[s.nonce[0], s.nonce[1], s.nonce[2], s.nonce[3]], #v[0, s.nonce[4], s.nonce[5]])

/-- The three regions of an AEAD command are in range (R106, R409). -/
def RegionsOk (s : State) : Prop :=
  s.aad.toNat + s.aadlen.toNat ≤ s.cfg.bufSize ∧ s.src.toNat + s.len.toNat ≤ s.cfg.bufSize ∧
  s.dst.toNat + s.len.toNat ≤ s.cfg.bufSize

/-- Byte k of the keystream from counter c (R209, R210). -/
def streamByte (keys : Vector Word 8 × Vector Word 3) (c k : Nat) : Byte :=
  (keystreamBlock keys.1 (BitVec.ofNat 32 (c + k / 64)) keys.2).getD (k % 64) 0

/-- X padded with zeros to a multiple of 16 bytes (R302). -/
def padded (X : List Byte) : List Byte := X ++ List.replicate ((16 - X.length % 16) % 16) 0

/-- The AEAD tag over associated data A and ciphertext C (R300 to R305). -/
def tagOver (keys : Vector Word 8 × Vector Word 3) (A C : List Byte) : List Byte :=
  (poly ((keystreamBlock keys.1 0 keys.2).take 32)
    (padded A ++ padded C ++ serN A.length 8 ++ serN C.length 8)).2

/-- `t` differs from `s` outside STATUS only in buffer bytes of (DST, LEN), which are the bytes of (SRC, LEN)
XORed with the keystream from counter c. -/
def XorsIntoDst (keys : Vector Word 8 × Vector Word 3) (c : Nat) (s t : State) : Prop :=
  (∀ k < s.len.toNat, t.readByte (s.dst.toNat + k) = s.readByte (s.src.toNat + k) ^^^ streamByte keys c k) ∧
  (∀ a, a < s.dst.toNat ∨ s.dst.toNat + s.len.toNat ≤ a → t.readByte a = s.readByte a)

/-- An encryption of `s` that ended in `t` (R304, R308, R364). -/
def Seals (keys : Vector Word 8 × Vector Word 3) (s t : State) : Prop :=
  t = done { s with buf := t.buf, tag := t.tag } ∧ XorsIntoDst keys 1 s t ∧
  serW t.tag.toList =
    tagOver keys (s.memRead s.aad.toNat s.aadlen.toNat) (t.memRead s.dst.toNat s.len.toNat)

/-- The tag in TAG0-3 is the one of the message at SRC (R305, R307). -/
def TagMatches (keys : Vector Word 8 × Vector Word 3) (s : State) : Prop :=
  serW s.tag.toList =
    tagOver keys (s.memRead s.aad.toNat s.aadlen.toNat) (s.memRead s.src.toNat s.len.toNat)

/-! The checks of each command, in the words of R148 and R406 to R413. -/

/-- The commands that need KEY_LEN = 32 (R406). -/
def needsKey : Instr → Prop
  | .stldCc | .stldHc | .ccInit | .pInit | .aeadEnc | .aeadDec | .hchacha | .xcInit | .xaeadEnc | .xaeadDec => True
  | .qr _ _ _ _ | .colrnd | .diagrnd | .dblrnd | .perm20 | .core20 | .ccBlock | .ccXor | .pTag => False

/-- The nonce size each command needs, if any (R407). -/
def nonceSize : Instr → Option Nat
  | .stldCc | .ccInit | .aeadEnc | .aeadDec => some 12
  | .stldHc | .hchacha => some 16
  | .xcInit | .xaeadEnc | .xaeadDec => some 24
  | .qr _ _ _ _ | .colrnd | .diagrnd | .dblrnd | .perm20 | .core20 | .ccBlock | .ccXor | .pInit | .pTag => none

/-- The regions of each command (R409). -/
def regions (s : State) : Instr → List (Nat × Nat)
  | .ccBlock => [(s.dst.toNat, 64)]
  | .ccXor => [(s.src.toNat, s.len.toNat), (s.dst.toNat, s.len.toNat)]
  | .pTag => [(s.src.toNat, s.len.toNat)]
  | .aeadEnc | .aeadDec | .xaeadEnc | .xaeadDec =>
    [(s.aad.toNat, s.aadlen.toNat), (s.src.toNat, s.len.toNat), (s.dst.toNat, s.len.toNat)]
  | .qr _ _ _ _ | .colrnd | .diagrnd | .dblrnd | .perm20 | .core20 | .stldCc | .stldHc | .ccInit | .pInit
  | .hchacha | .xcInit => []

/-- Whether the error of a code applies to a command in a state (R405 to R413). -/
def Applies (s : State) (i : Instr) : ErrCode → Prop
  | .ok => False
  | .illegalCmd => i.wellFormed = false
  | .invalidKeyLength => needsKey i ∧ s.keyLen.toNat ≠ 32
  | .invalidNonceLength => ∃ n, nonceSize i = some n ∧ s.nonceLen.toNat ≠ n
  | .invalidTagLength => (i = .aeadDec ∨ i = .xaeadDec) ∧ s.tagLen.toNat ≠ 16
  | .bufferRange => ∃ r ∈ regions s i, s.cfg.bufSize < r.1 + r.2
  | .notInitialised =>
    ((i = .ccBlock ∨ i = .ccXor) ∧ s.ccvalid = false) ∨ (i = .pTag ∧ s.pstat = .none)
  | .instanceConsumed => i = .pTag ∧ s.pstat = .used
  | .counterOverflow =>
    (i = .ccBlock ∧ 2 ^ 32 < s.ccnext + 1) ∨ (i = .ccXor ∧ 2 ^ 32 < s.ccnext + (s.len.toNat + 63) / 64)
  | .authenticationFailed =>
    (i = .aeadDec ∧ ¬TagMatches (chachaKeys s) s) ∨ (i = .xaeadDec ∧ ¬TagMatches (xchachaKeys s) s)

/-- The commands that write the working matrix (R47). -/
def writesMatrix : Instr → Bool
  | .qr _ _ _ _ | .colrnd | .diagrnd | .dblrnd | .perm20 | .core20 | .stldCc | .stldHc => true
  | .ccInit | .ccBlock | .ccXor | .pInit | .pTag | .aeadEnc | .aeadDec | .hchacha | .xcInit | .xaeadEnc
  | .xaeadDec => false

/-- How many bytes from DST on a command may store (R221, R222, R308, R309, R364, R365). -/
def storedBytes (s : State) : Instr → Nat
  | .ccBlock => 64
  | .ccXor | .aeadEnc | .aeadDec | .xaeadEnc | .xaeadDec => s.len.toNat
  | .qr _ _ _ _ | .colrnd | .diagrnd | .dblrnd | .perm20 | .core20 | .stldCc | .stldHc | .ccInit | .pInit
  | .pTag | .hchacha | .xcInit => 0

/-- The registers a host write does not change (R57), CMD, CTRL and STATUS apart. -/
def readOnly : Reg → Bool
  | .id | .lastcmd | .subkey _ | .cckey _ | .ccnonce _ | .ccctr | .ccstat | .pr _ | .ps _ | .acc _ | .pstat => true
  | .ctrl | .status | .cmd | .lencfg | .counter | .src | .dst | .len | .aad | .aadlen | .key _ | .nonce _
  | .tag _ | .mat _ => false

/-- The full-width registers of R57. -/
def fullWidth : Reg → Bool
  | .counter | .src | .dst | .len | .aad | .aadlen | .key _ | .nonce _ | .tag _ | .mat _ => true
  | .id | .ctrl | .status | .cmd | .lastcmd | .lencfg | .subkey _ | .cckey _ | .ccnonce _ | .ccctr | .ccstat
  | .pr _ | .ps _ | .acc _ | .pstat => false

/-- A host write that performs a soft reset (R452). -/
def SoftResets (a : HostAccess) : Prop := ∃ v : Word, a = .write 32 0x004 v ∧ v.getLsbD 1 = true

end Sys2Proof.Claims

open Sys2Proof.Claims

/-! ### The command word -/

/-- R144: the word of every row of the opcode map decodes to its command; for QR, the two words the spec
writes out (R212, 95_test_vectors.md V2). -/
def Obligations.OpcodeMapWordsDecode : Prop :=
  decode 0x00321010 = .ok (.qr 0 1 2 3) ∧ decode 0x00D87210 = .ok (.qr 2 7 8 13) ∧
  decode 0x00000011 = .ok .colrnd ∧ decode 0x00000012 = .ok .diagrnd ∧ decode 0x00000013 = .ok .dblrnd ∧
  decode 0x00000014 = .ok .perm20 ∧ decode 0x00000015 = .ok .core20 ∧ decode 0x00000016 = .ok .stldCc ∧
  decode 0x00000017 = .ok .stldHc ∧ decode 0x00000020 = .ok .ccInit ∧ decode 0x00000021 = .ok .ccBlock ∧
  decode 0x00000022 = .ok .ccXor ∧ decode 0x00000030 = .ok .pInit ∧ decode 0x00000031 = .ok .pTag ∧
  decode 0x00000040 = .ok .aeadEnc ∧ decode 0x00000041 = .ok .aeadDec ∧ decode 0x00000050 = .ok .hchacha ∧
  decode 0x00000060 = .ok .xcInit ∧ decode 0x00000061 = .ok .xaeadEnc ∧ decode 0x00000062 = .ok .xaeadDec

/-- R405: a word is illegal exactly in the cases the rule lists, and the engine completes such a command with
ILLEGAL_CMD, recording nothing besides the code; the word itself stays in LASTCMD. -/
def Obligations.IllegalWordsCompleteWithIllegalCmd : Prop :=
  (∀ w : Word, (∃ e, decode w = .error e) ↔ IllegalWord w) ∧
  ∀ s : State, s.busy = true → IllegalWord s.lastcmd → engineTurn s = .next (failed s .illegalCmd)

/-- R140, R144: decoding the encoded word of a legal command gives it back, whatever its indices. -/
def Obligations.DecodeAfterEncode : Prop :=
  ∀ i : Instr, i.wellFormed = true → decode (encode i) = .ok i

/-- R144: "Every 32-bit word thus decodes to exactly one row": a word that decodes is the encoding of the command
it decodes to, and that command is legal. -/
def Obligations.EncodeAfterDecode : Prop :=
  ∀ (w : Word) (i : Instr), decode w = .ok i → encode i = w ∧ i.wellFormed = true

/-- R100, R403: a step is the next turn of the agenda, taken off it (the agenda is the model's, log 2): a host access,
a power-on, or the engine's turn, which comes also when nothing is on the agenda.  In the engine's turn an
outstanding command runs: when LASTCMD decodes to a command, the step is `exec` of it; an idle engine changes
nothing. -/
def Obligations.StepRunsOutstandingCommand : Prop :=
  ∀ (s : State) (rest : List Turn),
    (∀ i, EngineNext s rest → s.busy = true → decode s.lastcmd = .ok i → i.wellFormed = true →
      step s = exec i { s with agenda := rest }) ∧
    (EngineNext s rest → s.busy = true → step s = engineTurn { s with agenda := rest }) ∧
    (EngineNext s rest → s.busy = false → step s = .next { s with agenda := rest }) ∧
    (∀ a, s.agenda = .host a :: rest → step s = hostAccess a { s with agenda := rest }) ∧
    (s.agenda = .powerOn :: rest → step s = .next (State.powerOn { s with agenda := rest }))

/-! ### The working matrix -/

/-- R201, R212: QR on four distinct words writes the quarter round of them, rotations by 16, 12, 8 and 7, and
changes no other word and nothing else but STATUS. -/
def Obligations.QrMixesFourWords : Prop :=
  ∀ (s : State) (a b c d : Fin 16), a ≠ b → a ≠ c → a ≠ d → b ≠ c → b ≠ d → c ≠ d →
  ∀ a₁ d₁ c₁ b₁ a₂ d₂ c₂ b₂ : Word,
    a₁ = s.mat[a] + s.mat[b] → d₁ = (s.mat[d] ^^^ a₁).rotateLeft 16 →
    c₁ = s.mat[c] + d₁ → b₁ = (s.mat[b] ^^^ c₁).rotateLeft 12 →
    a₂ = a₁ + b₁ → d₂ = (d₁ ^^^ a₂).rotateLeft 8 →
    c₂ = c₁ + d₂ → b₂ = (b₁ ^^^ c₂).rotateLeft 7 →
    ∃ t, exec (.qr a b c d) s = .next t ∧ t = done { s with mat := t.mat } ∧
      t.mat[a] = a₂ ∧ t.mat[b] = b₂ ∧ t.mat[c] = c₂ ∧ t.mat[d] = d₂ ∧
      ∀ m : Fin 16, m ≠ a → m ≠ b → m ≠ c → m ≠ d → t.mat[m] = s.mat[m]

/-- R142, R212: QR with indices that are not pairwise distinct completes with ILLEGAL_CMD (of the term, log 8). -/
def Obligations.QrRepeatedIndicesIllegal : Prop :=
  ∀ (s : State) (a b c d : Fin 16), (a = b ∨ a = c ∨ a = d ∨ b = c ∨ b = d ∨ c = d) →
    exec (.qr a b c d) s = .next (failed s .illegalCmd)

/-- R203, R211, R213: COLRND puts the quarter round of column L in column L, for each of the four columns. -/
def Obligations.ColrndMixesEachColumn : Prop :=
  ∀ s : State, ∃ t, exec .colrnd s = .next t ∧ t = done { s with mat := t.mat } ∧
    ∀ (L : Nat) (h : L < 4),
      (t.mat[L], t.mat[L + 4], t.mat[L + 8], t.mat[L + 12]) =
        quarterRound s.mat[L] s.mat[L + 4] s.mat[L + 8] s.mat[L + 12]

/-- R204, R211, R214: DIAGRND puts the quarter round of diagonal L in diagonal L, the group whose first word is
word L. -/
def Obligations.DiagrndMixesEachDiagonal : Prop :=
  ∀ s : State, ∃ t, exec .diagrnd s = .next t ∧ t = done { s with mat := t.mat } ∧
    ∀ (L : Nat) (h : L < 4),
      (t.mat[L], t.mat[4 + (L + 1) % 4], t.mat[8 + (L + 2) % 4], t.mat[12 + (L + 3) % 4]) =
        quarterRound s.mat[L] s.mat[4 + (L + 1) % 4] s.mat[8 + (L + 2) % 4] s.mat[12 + (L + 3) % 4]

/-- R211: quarter rounds on two groups of distinct words with no word in common give the same matrix in either
order.  The spec marks R211 as derived. -/
def Obligations.DisjointQuarterRoundsCommute : Prop :=
  ∀ (X : Vector Word 16) (a b c d i j k l : Fin 16), [a, b, c, d, i, j, k, l].Nodup →
    qrx (qrx X a b c d) i j k l = qrx (qrx X i j k l) a b c d

/-- R215: "DBLRND gives the same result as COLRND followed by DIAGRND". -/
def Obligations.DblrndIsColrndThenDiagrnd : Prop :=
  ∀ s : State, ∃ t u, exec .colrnd s = .next t ∧ exec .diagrnd t = .next u ∧ exec .dblrnd s = .next u

/-- R216: "PERM20 equals ten DBLRND in sequence": ten DBLRND run from any state, and PERM20 gives the state they
end in. -/
def Obligations.Perm20IsTenDblrnd : Prop :=
  ∀ s : State, ∃ ss : Nat → State, ss 0 = s ∧ (∀ k < 10, exec .dblrnd (ss k) = .next (ss (k + 1))) ∧
    exec .perm20 s = .next (ss 10)

/-- R207, R217: CORE20 adds to each word of PERM20's result the word the matrix held before the command; PERM20
adds nothing; both change only STATE and STATUS. -/
def Obligations.Core20AddsTheOldMatrix : Prop :=
  ∀ s : State, ∃ t u, exec .perm20 s = .next t ∧ exec .core20 s = .next u ∧
    t = done { s with mat := t.mat } ∧ u = done { s with mat := u.mat } ∧
    ∀ i : Fin 16, u.mat[i] = t.mat[i] + s.mat[i]

/-- R201 to R206, R216: the permutation alone loses nothing, which is why the feed-forward is there (R20): PERM20
takes distinct matrices to distinct matrices. -/
def Obligations.Perm20KeepsMatricesApart : Prop :=
  ∀ s s' t t' : State, s.mat ≠ s'.mat → exec .perm20 s = .next t → exec .perm20 s' = .next t' → t.mat ≠ t'.mat

/-- R208, R218, R340, R219: with the declared lengths STLD_CC and STLD_HC load the initial matrices and change
only STATE and STATUS. -/
def Obligations.StldLoadsTheInitialMatrix : Prop :=
  ∀ s : State, s.keyLen = 32 →
    (s.nonceLen = 12 → exec .stldCc s = .next (done { s with mat :=
      #v[0x61707865, 0x3320646e, 0x79622d32, 0x6b206574,
         s.key[0], s.key[1], s.key[2], s.key[3], s.key[4], s.key[5], s.key[6], s.key[7],
         s.counter, s.nonce[0], s.nonce[1], s.nonce[2]] })) ∧
    (s.nonceLen = 16 → exec .stldHc s = .next (done { s with mat :=
      #v[0x61707865, 0x3320646e, 0x79622d32, 0x6b206574,
         s.key[0], s.key[1], s.key[2], s.key[3], s.key[4], s.key[5], s.key[6], s.key[7],
         s.nonce[0], s.nonce[1], s.nonce[2], s.nonce[3]] }))

/-- R219, R341, R342: HCHACHA writes to SUBKEY0-7 the first and last rows that STLD_HC and then PERM20 leave in
STATE, and changes nothing else but STATUS. -/
def Obligations.HchachaIsStldHcThenPerm20 : Prop :=
  ∀ s : State, s.keyLen = 32 → s.nonceLen = 16 → ∃ t u, exec .stldHc s = .next t ∧ exec .perm20 t = .next u ∧
    exec .hchacha s = .next (done { s with subkey :=
      #v[u.mat[0], u.mat[1], u.mat[2], u.mat[3], u.mat[12], u.mat[13], u.mat[14], u.mat[15]] })

/-! ### The ChaCha20 context -/

/-- R220, R361, R362: CC_INIT loads KEY, NONCE0-2 and COUNTER; XC_INIT loads the subkey that HCHACHA derives from
KEY and NONCE0-3, the nonce words 0, NONCE4, NONCE5, and COUNTER.  Both make the context valid and change
nothing else but STATUS. -/
def Obligations.InitLoadsTheContext : Prop :=
  ∀ s : State, s.keyLen = 32 →
    (s.nonceLen = 12 → exec .ccInit s = .next (done { s with
      cckey := s.key, ccnonce := #v[s.nonce[0], s.nonce[1], s.nonce[2]], ccnext := s.counter.toNat,
      ccvalid := true })) ∧
    (s.nonceLen = 24 → ∃ u, exec .hchacha { s with nonceLen := 16 } = .next u ∧
      exec .xcInit s = .next (done { s with
        cckey := u.subkey, ccnonce := #v[0, s.nonce[4], s.nonce[5]], ccnext := s.counter.toNat,
        ccvalid := true }))

/-- R208, R209, R221: with DST in range, a valid context and a counter left, CC_BLOCK stores at DST the 64 bytes of
the matrix that CORE20 makes of the constants, the context's key, CCNEXT and its nonce, byte 4i + j being byte j of
word i; these are the keystream bytes that the other statements name.  It advances CCNEXT by 1 and changes no other
byte and nothing else but STATUS. -/
def Obligations.CcBlockStoresOneBlock : Prop :=
  ∀ s : State, s.dst.toNat + 64 ≤ s.cfg.bufSize → s.ccvalid = true → s.ccnext < 2 ^ 32 →
    ∃ t u, exec .ccBlock s = .next t ∧ t = done { s with buf := t.buf, ccnext := s.ccnext + 1 } ∧
      exec .core20 { s with mat :=
        #v[0x61707865, 0x3320646e, 0x79622d32, 0x6b206574, s.cckey[0], s.cckey[1], s.cckey[2], s.cckey[3],
           s.cckey[4], s.cckey[5], s.cckey[6], s.cckey[7], BitVec.ofNat 32 s.ccnext, s.ccnonce[0], s.ccnonce[1],
           s.ccnonce[2]] } = .next u ∧
      (∀ (i : Fin 16) (j : Fin 4),
        t.readByte (s.dst.toNat + (4 * i.val + j.val)) = u.mat[i].extractLsb' (8 * j.val) 8 ∧
        streamByte (s.cckey, s.ccnonce) s.ccnext (4 * i.val + j.val) = u.mat[i].extractLsb' (8 * j.val) 8) ∧
      ∀ a, a < s.dst.toNat ∨ s.dst.toNat + 64 ≤ a → t.readByte a = s.readByte a

/-- R210, R222: with both regions in range, a valid context and enough counters left, CC_XOR stores at DST the
message at SRC, as it was at issue, XORed with the keystream from CCNEXT, advances CCNEXT by ceil(LEN/64), and
changes no other byte and nothing else but STATUS. -/
def Obligations.CcXorStoresMessageXorKeystream : Prop :=
  ∀ s : State, s.src.toNat + s.len.toNat ≤ s.cfg.bufSize → s.dst.toNat + s.len.toNat ≤ s.cfg.bufSize →
    s.ccvalid = true → s.ccnext + (s.len.toNat + 63) / 64 ≤ 2 ^ 32 →
    ∃ t, exec .ccXor s = .next t ∧
      t = done { s with buf := t.buf, ccnext := s.ccnext + (s.len.toNat + 63) / 64 } ∧
      XorsIntoDst (s.cckey, s.ccnonce) s.ccnext s t

/-- R223: CC_BLOCK and CC_XOR that need more blocks than remain complete with COUNTER_OVERFLOW and write nothing;
and no command but CC_INIT and XC_INIT ever lowers CCNEXT or takes it past 2^32. -/
def Obligations.CounterNeverWraps : Prop :=
  (∀ s : State, s.ccvalid = true → s.dst.toNat + 64 ≤ s.cfg.bufSize → 2 ^ 32 < s.ccnext + 1 →
    exec .ccBlock s = .next (failed s .counterOverflow)) ∧
  (∀ s : State, s.ccvalid = true → s.src.toNat + s.len.toNat ≤ s.cfg.bufSize →
    s.dst.toNat + s.len.toNat ≤ s.cfg.bufSize → 2 ^ 32 < s.ccnext + (s.len.toNat + 63) / 64 →
    exec .ccXor s = .next (failed s .counterOverflow)) ∧
  ∀ (i : Instr) (s t : State), s.ccnext ≤ 2 ^ 32 → i ≠ .ccInit → i ≠ .xcInit → exec i s = .next t →
    s.ccnext ≤ t.ccnext ∧ t.ccnext ≤ 2 ^ 32

/-- R225: "applying CC_XOR to M and then, from the same starting CCNEXT, to the result gives M back".  `u` is any
state that holds the result of the first CC_XOR at its SRC and the same context with the counter set back.  The spec
marks R225 as derived (from R210). -/
def Obligations.CcXorTwiceGivesTheMessageBack : Prop :=
  ∀ s t u : State, s.src.toNat + s.len.toNat ≤ s.cfg.bufSize → s.dst.toNat + s.len.toNat ≤ s.cfg.bufSize →
    s.ccvalid = true → s.ccnext + (s.len.toNat + 63) / 64 ≤ 2 ^ 32 → exec .ccXor s = .next t →
    u.cckey = s.cckey → u.ccnonce = s.ccnonce → u.ccnext = s.ccnext → u.ccvalid = true → u.len = s.len →
    u.src.toNat + u.len.toNat ≤ u.cfg.bufSize → u.dst.toNat + u.len.toNat ≤ u.cfg.bufSize →
    (∀ k < s.len.toNat, u.readByte (u.src.toNat + k) = t.readByte (s.dst.toNat + k)) →
    ∃ v, exec .ccXor u = .next v ∧ v.err = .ok ∧
      ∀ k < s.len.toNat, v.readByte (u.dst.toNat + k) = s.readByte (s.src.toNat + k)

/-- R224: a message cut at a multiple of 64 bytes gives the output and the counter of the uncut message, the second
part going on from the counter after the first.  The spec marks R224 as derived. -/
def Obligations.KeystreamContinuesAtBlockBoundaries : Prop :=
  ∀ (kw : Vector Word 8) (nw : Vector Word 3) (c : Nat) (M N : List Byte), M.length % 64 = 0 →
    (xorKs kw nw c (M ++ N)).1 = (xorKs kw nw c M).1 ++ (xorKs kw nw (xorKs kw nw c M).2 N).1 ∧
    (xorKs kw nw c (M ++ N)).2 = (xorKs kw nw (xorKs kw nw c M).2 N).2

/-! ### Poly1305 -/

/-- R269: with KEY_LEN = 32, P_INIT loads the clamped r and s, clears ACC and makes the context READY from any
state of it; nothing else changes but STATUS. -/
def Obligations.PInitLoadsThePolyContext : Prop :=
  ∀ s : State, s.keyLen = 32 → exec .pInit s = .next (done { s with
    pr := #v[s.key[0] &&& 0x0fffffff, s.key[1] &&& 0x0ffffffc, s.key[2] &&& 0x0ffffffc, s.key[3] &&& 0x0ffffffc]
    ps := #v[s.key[4], s.key[5], s.key[6], s.key[7]], acc := 0, pstat := .ready })

/-- R262: the mask clears the top 4 bits of bytes 3, 7, 11, 15 and the bottom 2 bits of bytes 4, 8, 12 and no other
bit, and the clamp on words is the same. -/
def Obligations.ClampClearsTheNamedBits : Prop :=
  (∀ B : List Byte, B.length = 16 → ∀ i < 16, (serN (clamp (leInt B)) 16).getD i 0 =
    (if i = 3 ∨ i = 7 ∨ i = 11 ∨ i = 15 then B.getD i 0 &&& 0x0f
     else if i = 4 ∨ i = 8 ∨ i = 12 then B.getD i 0 &&& 0xfc else B.getD i 0)) ∧
  (∀ r0 : Nat, clamp r0 = r0 &&& 0x0ffffffc0ffffffc0ffffffc0fffffff) ∧
  ∀ k : Vector Word 8, wordsInt (clampWords k).toList = clamp (leInt (serW [k[0], k[1], k[2], k[3]])) ∧
    clampWords k = #v[k[0] &&& 0x0fffffff, k[1] &&& 0x0ffffffc, k[2] &&& 0x0ffffffc, k[3] &&& 0x0ffffffc]

/-- R264: the block value "appends a byte of value 1 immediately after the block's own bytes"; for a full block that
byte is the 17th, for a short one of m bytes it is byte m. -/
def Obligations.BlockValueAppendsOneByte : Prop :=
  ∀ B : List Byte, 1 ≤ B.length → B.length ≤ 16 →
    blockValue B = leInt B + 2 ^ (8 * B.length) ∧ blockValue B = leInt (B ++ [1]) ∧
    (B.length = 16 → blockValue B = leInt B + 2 ^ 128)

/-- R261, R263, R265, R266, R267: with no block the accumulator stays as it is; each block B, a full one or the last one,
replaces it by `((ACC + LEint(B) + 2^(8|B|)) · r) mod (2^130 − 5)`, which is below 2^130 − 5, and the rest of the
message goes on from there; POLY starts at 0 with r clamped from the key's first 16 bytes and serialises
`(ACC + s) mod 2^128`, s being its last 16 bytes. -/
def Obligations.PolyAccumulatesBlockByBlock : Prop :=
  (∀ r acc : Nat, polyAcc r acc [] = acc) ∧
  (∀ (r acc : Nat) (B M : List Byte), 1 ≤ B.length → B.length ≤ 16 → (B.length = 16 ∨ M = []) →
    polyAcc r acc (B ++ M) = polyAcc r (((acc + leInt B + 2 ^ (8 * B.length)) * r) % (2 ^ 130 - 5)) M ∧
    polyAcc r acc (B ++ M) < 2 ^ 130 - 5) ∧
  ∀ K M : List Byte, K.length = 32 →
    (poly K M).1 = polyAcc (clamp (leInt (K.take 16))) 0 M ∧
    (poly K M).2 = serN (((poly K M).1 + leInt (K.drop 16)) % 2 ^ 128) 16

/-- R268: the five corner cases of POLY, which the spec marks as derived from R267. -/
def Obligations.PolyCornerCases : Prop :=
  (∀ K : List Byte, K.length = 32 → poly K [] = (0, serN (leInt (K.drop 16)) 16)) ∧
  (∀ K M : List Byte, K.length = 32 → clamp (leInt (K.take 16)) = 0 → poly K M = (0, serN (leInt (K.drop 16)) 16)) ∧
  (polyAcc 1 0 (List.replicate 16 0xff) = 2 ^ 129 - 1 ∧ polyAcc 1 0 (List.replicate 32 0xff) = 3 ∧
    (2 ^ 130 - 2) % polyP = 3) ∧
  (polyTag 3 (2 ^ 128 - 1) = serN 2 16 ∧
    ∀ acc s : Nat, acc < 2 ^ 130 → s < 2 ^ 128 → leInt (polyTag acc s) = (acc + s) % 2 ^ 128) ∧
  blockValue [0x00] = 2 ^ 8

/-- R270: with SRC in range and the context READY, P_TAG leaves in ACC the accumulator after the blocks of the
message, in TAG0-3 the words of (ACC + s) mod 2^128 and the context USED; nothing else changes but STATUS. -/
def Obligations.PTagAuthenticatesTheMessage : Prop :=
  ∀ s : State, s.src.toNat + s.len.toNat ≤ s.cfg.bufSize → s.pstat = .ready →
    ∃ t, exec .pTag s = .next t ∧ t = done { s with acc := t.acc, tag := t.tag, pstat := .used } ∧
      t.acc = polyAcc (wordsInt s.pr.toList) s.acc (s.memRead s.src.toNat s.len.toNat) ∧
      wordsInt t.tag.toList = (t.acc + wordsInt s.ps.toList) % 2 ^ 128

/-- R267, R269, R270: P_INIT and then P_TAG leave in ACC and TAG0-3 the two results of POLY on the 32 bytes of KEY
and the message, whatever the Poly1305 context was before. -/
def Obligations.PInitThenPTagComputesPoly : Prop :=
  ∀ s : State, s.keyLen = 32 → s.src.toNat + s.len.toNat ≤ s.cfg.bufSize →
    ∃ t u, exec .pInit s = .next t ∧ exec .pTag t = .next u ∧
      u.acc = (poly (serW s.key.toList) (s.memRead s.src.toNat s.len.toNat)).1 ∧
      serW u.tag.toList = (poly (serW s.key.toList) (s.memRead s.src.toNat s.len.toNat)).2 ∧
      u = done { s with pr := u.pr, ps := u.ps, acc := u.acc, tag := u.tag, pstat := .used }

/-- R271: along any run, whatever the host does, between two successful P_TAGs there is a successful P_INIT; and the
Poly1305 context moves NONE to READY and USED to READY only on P_INIT, READY to USED only on P_TAG, and back to
NONE only by a reset.  The spec marks R271 as derived. -/
def Obligations.PTagIsSingleUse : Prop :=
  (∀ (ss : Nat → State) (m n : Nat), (∀ j < n + 1, step (ss j) = .next (ss (j + 1))) → m < n →
    Completes .pTag (ss m) (ss (m + 1)) → Completes .pTag (ss n) (ss (n + 1)) →
    ∃ j, m < j ∧ j < n ∧ Completes .pInit (ss j) (ss (j + 1))) ∧
  ∀ s t : State, step s = .next t → t.pstat ≠ s.pstat →
    (t.pstat = .ready ∧ Completes .pInit s t) ∨ (s.pstat = .ready ∧ t.pstat = .used ∧ Completes .pTag s t) ∨
    (t.pstat = .none ∧ ∃ a rest, s.agenda = a :: rest ∧ (a = .powerOn ∨ ∃ h, a = .host h ∧ SoftResets h))

/-! ### The AEAD commands -/

/-- R304, R308, R363, R364: with the declared lengths and the regions in range, AEAD_ENC and XAEAD_ENC encrypt the
message to DST with the keystream from counter 1 and leave in TAG0-3 the tag over the associated data and the
ciphertext, all inputs read as they were at issue; no other byte and nothing else but STATUS changes. -/
def Obligations.EncryptionSealsTheMessage : Prop :=
  ∀ s : State, s.keyLen = 32 → RegionsOk s →
    (s.nonceLen = 12 → ∃ t, exec .aeadEnc s = .next t ∧ Seals (chachaKeys s) s t) ∧
    (s.nonceLen = 24 → ∃ t, exec .xaeadEnc s = .next t ∧ Seals (xchachaKeys s) s t)

/-- R305, R309, R365: with the declared lengths, the regions in range and the right tag in TAG0-3, AEAD_DEC and
XAEAD_DEC write the plaintext to DST; no other byte and nothing else but STATUS changes. -/
def Obligations.DecryptionOpensTheMessage : Prop :=
  ∀ s : State, s.keyLen = 32 → s.tagLen = 16 → RegionsOk s →
    (s.nonceLen = 12 → TagMatches (chachaKeys s) s →
      ∃ t, exec .aeadDec s = .next t ∧ t = done { s with buf := t.buf } ∧ XorsIntoDst (chachaKeys s) 1 s t) ∧
    (s.nonceLen = 24 → TagMatches (xchachaKeys s) s →
      ∃ t, exec .xaeadDec s = .next t ∧ t = done { s with buf := t.buf } ∧ XorsIntoDst (xchachaKeys s) 1 s t)

/-- R413: a decryption that passes its other checks raises AUTHENTICATION_FAILED when the computed tag differs from
TAG0-3 in any byte, and then records nothing but the code: no plaintext byte, no computed tag, no position. -/
def Obligations.DecryptionFailsClosed : Prop :=
  ∀ s : State, s.keyLen = 32 → s.tagLen = 16 → RegionsOk s →
    (s.nonceLen = 12 →
      ¬TagMatches (chachaKeys s) s → exec .aeadDec s = .next (failed s .authenticationFailed)) ∧
    (s.nonceLen = 24 →
      ¬TagMatches (xchachaKeys s) s → exec .xaeadDec s = .next (failed s .authenticationFailed))

/-- R311, and the same of the X pair (R363): a decryption under the same key, nonce, associated data bytes and tag,
with the ciphertext at its SRC, succeeds and gives the plaintext back.  The spec marks R311 as derived. -/
def Obligations.DecryptionOfEncryptionGivesThePlaintext : Prop :=
  ∀ (enc dec : Instr) (n : Byte), (enc, dec, n) ∈ [(Instr.aeadEnc, Instr.aeadDec, 12#8), (.xaeadEnc, .xaeadDec, 24#8)] →
  ∀ s t u : State, s.keyLen = 32 → s.nonceLen = n → RegionsOk s → exec enc s = .next t →
    u.keyLen = 32 → u.nonceLen = n → u.tagLen = 16 → RegionsOk u →
    u.key = s.key → u.nonce = s.nonce → u.tag = t.tag → u.len = s.len → u.aadlen = s.aadlen →
    (∀ k < s.aadlen.toNat, u.readByte (u.aad.toNat + k) = s.readByte (s.aad.toNat + k)) →
    (∀ k < s.len.toNat, u.readByte (u.src.toNat + k) = t.readByte (s.dst.toNat + k)) →
    ∃ v, exec dec u = .next v ∧ v.err = .ok ∧
      ∀ k < s.len.toNat, v.readByte (u.dst.toNat + k) = s.readByte (s.src.toNat + k)

/-- 42_aead.md (D18), R364, R365: an AEAD command "neither reads nor changes the CC context, the Poly context, STATE or
SUBKEY": with any other values there it does the same and leaves those values. -/
def Obligations.AeadCommandsUsePrivateState : Prop :=
  ∀ i ∈ [Instr.aeadEnc, .aeadDec, .xaeadEnc, .xaeadDec], ∀ s s' t : State,
    s' = { s with cckey := s'.cckey, ccnonce := s'.ccnonce, ccnext := s'.ccnext, ccvalid := s'.ccvalid, pr := s'.pr,
                  ps := s'.ps, acc := s'.acc, pstat := s'.pstat, mat := s'.mat, subkey := s'.subkey } →
    exec i s = .next t →
    exec i s' = .next { t with cckey := s'.cckey, ccnonce := s'.ccnonce, ccnext := s'.ccnext, ccvalid := s'.ccvalid,
                               pr := s'.pr, ps := s'.ps, acc := s'.acc, pstat := s'.pstat, mat := s'.mat,
                               subkey := s'.subkey }

/-- R44: "A command reads only the words its nonce length covers": the 12-byte commands do the same for any values of
NONCE3 to NONCE5, the 16-byte ones for any of NONCE4, NONCE5; and STLD_HC and HCHACHA for any COUNTER (R219, R342). -/
def Obligations.NonceWordsBeyondTheLengthAreNotRead : Prop :=
  ∀ (s : State) (x y z c : Word),
    (∀ i ∈ [Instr.stldCc, .ccInit, .aeadEnc, .aeadDec], ∃ t, exec i s = .next t ∧
      exec i { s with nonce := #v[s.nonce[0], s.nonce[1], s.nonce[2], x, y, z] } =
        .next { t with nonce := #v[s.nonce[0], s.nonce[1], s.nonce[2], x, y, z] }) ∧
    (∀ i ∈ [Instr.stldHc, .hchacha], ∃ t, exec i s = .next t ∧
      exec i { s with counter := c, nonce := #v[s.nonce[0], s.nonce[1], s.nonce[2], s.nonce[3], y, z] } =
        .next { t with counter := c, nonce := #v[s.nonce[0], s.nonce[1], s.nonce[2], s.nonce[3], y, z] })

/-- R306: "no AEAD command of CTK-CE can raise COUNTER_OVERFLOW", whatever the state.  The spec marks R306 as
derived. -/
def Obligations.AeadNeverOverflowsTheCounter : Prop :=
  ∀ i ∈ [Instr.aeadEnc, .aeadDec, .xaeadEnc, .xaeadDec], ∀ s : State,
    ∃ t, exec i s = .next t ∧ t.err ≠ .counterOverflow

/-! ### Completion and errors -/

/-- R400: "Every command ends in exactly one of two outcomes: success (ERR = 0) or exactly one error code", none
hangs; and by R403 BUSY is then 0, DONE 1, AERR and LASTCMD unchanged. -/
def Obligations.EveryCommandEndsInOneOutcome : Prop :=
  ∀ (i : Instr) (s : State), ∃ t, exec i s = .next t ∧ t.busy = false ∧ t.done = true ∧
    t.aerr = s.aerr ∧ t.lastcmd = s.lastcmd ∧ (t.err = .ok ∨ (t.err ≠ .ok ∧ 1 ≤ t.err.code.toNat ∧ t.err.code.toNat ≤ 9))

/-- R402: the code a command reports is the lowest of those that apply to it, and 0 exactly when none does; a
NOT_INITIALISED and an INSTANCE_CONSUMED cannot both apply. -/
def Obligations.ReportedCodeIsTheLowestThatApplies : Prop :=
  (∀ (i : Instr) (s t : State), exec i s = .next t →
    (t.err = .ok ↔ ∀ e, ¬Applies s i e) ∧
    (t.err ≠ .ok → Applies s i t.err ∧ ∀ e, Applies s i e → t.err.code.toNat ≤ e.code.toNat)) ∧
  ∀ (i : Instr) (s : State), ¬(Applies s i .notInitialised ∧ Applies s i .instanceConsumed)

/-- R404: "A command that completes with ERR ≠ 0 changes no state other than STATUS.BUSY, DONE and ERR", illegal
words included. -/
def Obligations.ErrorsChangeOnlyStatus : Prop :=
  ∀ s t : State, s.busy = true → engineTurn s = .next t → t.err ≠ .ok → t = failed s t.err

/-- R36 to R55, R62: no command changes an operand register, LENCFG or CTRL; each other register and flag is changed
only by the commands its rule names.  The spec marks R62 as derived. -/
def Obligations.RegistersHaveTheirWritersOnly : Prop :=
  ∀ (i : Instr) (s t : State), exec i s = .next t →
    (t.ie = s.ie ∧ t.aerr = s.aerr ∧ t.lastcmd = s.lastcmd ∧ t.keyLen = s.keyLen ∧ t.nonceLen = s.nonceLen ∧
      t.tagLen = s.tagLen ∧ t.counter = s.counter ∧ t.src = s.src ∧ t.dst = s.dst ∧ t.len = s.len ∧
      t.aad = s.aad ∧ t.aadlen = s.aadlen ∧ t.key = s.key ∧ t.nonce = s.nonce) ∧
    (t.tag ≠ s.tag → i = .pTag ∨ i = .aeadEnc ∨ i = .xaeadEnc) ∧
    (t.subkey ≠ s.subkey → i = .hchacha) ∧
    (t.mat ≠ s.mat → writesMatrix i = true) ∧
    (t.cckey ≠ s.cckey ∨ t.ccnonce ≠ s.ccnonce ∨ t.ccvalid ≠ s.ccvalid → i = .ccInit ∨ i = .xcInit) ∧
    (t.ccnext ≠ s.ccnext → i = .ccInit ∨ i = .xcInit ∨ i = .ccBlock ∨ i = .ccXor) ∧
    (t.pr ≠ s.pr ∨ t.ps ≠ s.ps → i = .pInit) ∧
    (t.acc ≠ s.acc ∨ t.pstat ≠ s.pstat → i = .pInit ∨ i = .pTag) ∧
    (t.cfg = s.cfg ∧ t.powerOns = s.powerOns ∧ t.rdata = s.rdata ∧ t.agenda = s.agenda)

/-- R221, R222, R308, R309, R364, R365: a command changes no buffer byte outside the region it stores to: (DST, 64)
for CC_BLOCK, (DST, LEN) for CC_XOR and the AEAD commands, none for the others. -/
def Obligations.StoresStayInTheirRegion : Prop :=
  ∀ (i : Instr) (s t : State), exec i s = .next t →
    ∀ a, a < s.dst.toNat ∨ s.dst.toNat + storedBytes s i ≤ a → t.readByte a = s.readByte a

/-- R415: IRQ is IE and DONE, and a completion sets DONE whatever its ERR, so IRQ then equals IE, for errors and
successes, illegal words included. -/
def Obligations.CompletionRaisesTheInterrupt : Prop :=
  (∀ s : State, s.irq = (s.ie && s.done)) ∧
  ∀ s : State, s.busy = true → ∃ t, engineTurn s = .next t ∧ t.done = true ∧ t.irq = s.ie

/-! ### The host port -/

/-- R34: an idle write to CMD issues the command: LASTCMD, BUSY, DONE and ERR change, AERR and all else do not; in
the busy window it is not performed (and sets AERR, R60); a read of CMD gives 0. -/
def Obligations.CmdWriteIssues : Prop :=
  ∀ (s : State) (w : Word),
    (s.busy = false → hostAccess (.write 32 0x00C w) s =
      .next { s with lastcmd := w, busy := true, done := false, err := .ok }) ∧
    (s.busy = true → hostAccess (.write 32 0x00C w) s = .next { s with aerr := true }) ∧
    hostAccess (.read 32 0x00C) s = .next { s with rdata := 0 }

/-- R60: in the busy window a read of ID, CTRL or STATUS returns its value and a read of any other offset 0; a write
to any offset but CTRL and STATUS is not performed and sets AERR, read-only and reserved offsets included (the
model's reading of R60, log 6). -/
def Obligations.BusyWindowAccesses : Prop :=
  ∀ (s : State) (off : Nat), s.busy = true → off % 4 = 0 → off < 0x1000 + s.cfg.bufSize →
    hostAccess (.read 32 off) s = .next { s with rdata :=
      (if off = 0x000 then 0x43544B01 else if off = 0x004 then s.readReg .ctrl
       else if off = 0x008 then s.readReg .status else 0) } ∧
    ∀ v : Word, off ≠ 0x004 → off ≠ 0x008 → hostAccess (.write 32 off v) s = .next { s with aerr := true }

/-- R466, with R112: whatever the host does in the busy window short of a soft reset or an access outside the
window, the outstanding command completes at the engine's turn, and its result is the one it has in the state at
issue, CTRL.IE, AERR and the read data apart.  How many host turns come first is the agenda's (log 2). -/
def Obligations.IssuedCommandsComplete : Prop :=
  ∀ (s : State) (hosts : List HostAccess) (rest : List Turn), s.busy = true →
    s.agenda = hosts.map Turn.host ++ .engine :: rest →
    (∀ a ∈ hosts, a.offset < 0x1000 + s.cfg.bufSize ∧ ¬SoftResets a) →
    ∃ t u, runSteps (hosts.length + 1) s = .next t ∧ engineTurn s = .next u ∧ u.busy = false ∧ u.done = true ∧
      t = { u with ie := t.ie, aerr := t.aerr, rdata := t.rdata, agenda := rest }

/-- R57, and R56's reserved offsets: an idle host write to a read-only register changes nothing; to a full-width
register it stores all 32 bits, to LENCFG its three fields with bits 31:24 reading 0, to CTRL without SRST the IE bit;
every other register reads as before and no buffer byte changes; an idle read of CMD gives 0.  An idle write to a
reserved offset is ignored with no error. -/
def Obligations.RegisterWritesStoreDefinedFields : Prop :=
  (∀ s : State, s.readReg .cmd = 0) ∧
  (∀ (s : State) (off : Nat) (v : Word), s.busy = false → off < 0x1000 → off % 4 = 0 → Reg.ofOffset off = none →
    hostAccess (.write 32 off v) s = .next s) ∧
  ∀ (s : State) (r : Reg) (v : Word), s.busy = false → r ≠ .cmd → r ≠ .status → (r = .ctrl → v.getLsbD 1 = false) →
    ∃ t, hostAccess (.write 32 r.offset v) s = .next t ∧ (readOnly r = true → t = s) ∧
      (fullWidth r = true → t.readReg r = v) ∧ (r = .lencfg → t.readReg r = v &&& 0x00ffffff) ∧
      (r = .ctrl → t.readReg r = v &&& 1) ∧
      (∀ r', r' ≠ r → t.readReg r' = s.readReg r') ∧ t.aerr = s.aerr ∧ t.busy = false ∧
      ∀ a, t.readByte a = s.readByte a

/-- R31 to R36, R50 to R55 and the map of R56: every register stands at its offset, and what it reads as is the field
of the state that the commands read and write; LENCFG holds KEY_LEN, NONCE_LEN and TAG_LEN from bit 0 up, CTRL holds
IE. -/
def Obligations.RegistersReadAsTheirFields : Prop :=
  ∀ s : State,
    (∀ x ∈ [(Reg.id, 0x000, (0x43544B01 : Word)), (.lastcmd, 0x010, s.lastcmd), (.counter, 0x018, s.counter),
        (.src, 0x020, s.src), (.dst, 0x024, s.dst), (.len, 0x028, s.len), (.aad, 0x02C, s.aad),
        (.aadlen, 0x030, s.aadlen)], x.1.offset = x.2.1 ∧ s.readReg x.1 = x.2.2) ∧
    (∀ i : Fin 8, (Reg.key i).offset = 0x040 + 4 * i.val ∧ s.readReg (.key i) = s.key[i]) ∧
    (∀ i : Fin 6, (Reg.nonce i).offset = 0x060 + 4 * i.val ∧ s.readReg (.nonce i) = s.nonce[i]) ∧
    (∀ i : Fin 4, (Reg.tag i).offset = 0x080 + 4 * i.val ∧ s.readReg (.tag i) = s.tag[i]) ∧
    (∀ i : Fin 8, (Reg.subkey i).offset = 0x0A0 + 4 * i.val ∧ s.readReg (.subkey i) = s.subkey[i]) ∧
    (∀ i : Fin 16, (Reg.mat i).offset = 0x0C0 + 4 * i.val ∧ s.readReg (.mat i) = s.mat[i]) ∧
    (∀ i : Fin 8, (Reg.cckey i).offset = 0x100 + 4 * i.val ∧ s.readReg (.cckey i) = s.cckey[i]) ∧
    (∀ i : Fin 3, (Reg.ccnonce i).offset = 0x120 + 4 * i.val ∧ s.readReg (.ccnonce i) = s.ccnonce[i]) ∧
    (∀ i : Fin 4, (Reg.pr i).offset = 0x140 + 4 * i.val ∧ s.readReg (.pr i) = s.pr[i]) ∧
    (∀ i : Fin 4, (Reg.ps i).offset = 0x150 + 4 * i.val ∧ s.readReg (.ps i) = s.ps[i]) ∧
    (∀ i : Fin 5, (Reg.acc i).offset = 0x160 + 4 * i.val ∧
      (s.readReg (.acc i)).toNat = s.acc / 2 ^ (32 * i.val) % 2 ^ 32) ∧
    (Reg.lencfg.offset = 0x014 ∧
      (s.readReg .lencfg).toNat = s.keyLen.toNat + 2 ^ 8 * s.nonceLen.toNat + 2 ^ 16 * s.tagLen.toNat) ∧
    (Reg.ctrl.offset = 0x004 ∧ (s.readReg .ctrl).toNat = s.ie.toNat) ∧
    Reg.status.offset = 0x008 ∧ Reg.cmd.offset = 0x00C ∧ Reg.ccctr.offset = 0x12C ∧ Reg.ccstat.offset = 0x130 ∧
    Reg.pstat.offset = 0x174

/-- R36 to R45, R47, R57: an idle host write at the offset of a read-write register stores the word in the field of
the state that the commands read, at LENCFG the three declared lengths from bit 0 up, and changes nothing else. -/
def Obligations.RegisterWritesSetTheirFields : Prop :=
  ∀ (s : State) (v : Word), s.busy = false →
    hostAccess (.write 32 0x014 v) s = .next { s with
      keyLen := v.extractLsb' 0 8, nonceLen := v.extractLsb' 8 8, tagLen := v.extractLsb' 16 8 } ∧
    hostAccess (.write 32 0x018 v) s = .next { s with counter := v } ∧
    hostAccess (.write 32 0x020 v) s = .next { s with src := v } ∧
    hostAccess (.write 32 0x024 v) s = .next { s with dst := v } ∧
    hostAccess (.write 32 0x028 v) s = .next { s with len := v } ∧
    hostAccess (.write 32 0x02C v) s = .next { s with aad := v } ∧
    hostAccess (.write 32 0x030 v) s = .next { s with aadlen := v } ∧
    (∀ i : Fin 8, hostAccess (.write 32 (0x040 + 4 * i.val) v) s = .next { s with key := s.key.set i v }) ∧
    (∀ i : Fin 6, hostAccess (.write 32 (0x060 + 4 * i.val) v) s = .next { s with nonce := s.nonce.set i v }) ∧
    (∀ i : Fin 4, hostAccess (.write 32 (0x080 + 4 * i.val) v) s = .next { s with tag := s.tag.set i v }) ∧
    ∀ i : Fin 16, hostAccess (.write 32 (0x0C0 + 4 * i.val) v) s = .next { s with mat := s.mat.set i v }

/-- R33: STATUS.DONE and AERR are cleared by writing 1 to them, kept by writing 0, and nothing else changes, in the
busy window too; R32: a write to CTRL without SRST stores IE and nothing else, and IRQ follows at once (R416). -/
def Obligations.StatusBitsAreWriteOneToClear : Prop :=
  ∀ (s : State) (v : Word),
    hostAccess (.write 32 0x008 v) s =
      .next { s with done := s.done && !v.getLsbD 1, aerr := s.aerr && !v.getLsbD 2 } ∧
    (v.getLsbD 1 = false → ∃ t, hostAccess (.write 32 0x004 v) s = .next t ∧
      t = { s with ie := v.getLsbD 0 } ∧ t.irq = (v.getLsbD 0 && s.done))

/-- R56, R109: an idle read of a register returns its word, of a reserved offset 0; no read in the window changes
anything but the port's read data, and AERR if the access is not an aligned word. -/
def Obligations.ReadsHaveNoSideEffect : Prop :=
  ∀ (s : State) (width off : Nat), off < 0x1000 + s.cfg.bufSize →
    ∃ t, hostAccess (.read width off) s = .next t ∧ t = { s with rdata := t.rdata, aerr := t.aerr } ∧
      (width = 32 → off % 4 = 0 → t.aerr = s.aerr) ∧
      (width = 32 → s.busy = false → ∀ r : Reg, off = r.offset → t.rdata = s.readReg r) ∧
      (width = 32 → off < 0x1000 → Reg.ofOffset off = none → t.rdata = 0)

/-- R105: an idle write of v at buffer-window offset 0x1000 + 4k stores byte j of v at 4k + j and changes no other
byte and nothing else; an idle read there returns the four bytes little-endian, so a read after the write returns
v. -/
def Obligations.BufferWordsAreLittleEndian : Prop :=
  ∀ (s : State) (k : Nat), s.busy = false → 4 * k < s.cfg.bufSize →
    (∀ v : Word, ∃ t, hostAccess (.write 32 (0x1000 + 4 * k) v) s = .next t ∧ t = { s with buf := t.buf } ∧
      (∀ j < 4, t.readByte (4 * k + j) = v.extractLsb' (8 * j) 8) ∧
      (∀ a, a < 4 * k ∨ 4 * k + 4 ≤ a → t.readByte a = s.readByte a) ∧
      hostAccess (.read 32 (0x1000 + 4 * k)) t = .next { t with rdata := v }) ∧
    hostAccess (.read 32 (0x1000 + 4 * k)) s = .next { s with rdata :=
      (BitVec.ofNat 32 ((s.readByte (4 * k)).toNat + 2 ^ 8 * (s.readByte (4 * k + 1)).toNat +
        2 ^ 16 * (s.readByte (4 * k + 2)).toNat + 2 ^ 24 * (s.readByte (4 * k + 3)).toNat)) }

/-- R103: an access of another width than 32 bits, or at an offset that is not a multiple of 4, is not performed: a
read returns 0, a write changes nothing, and AERR is set in both cases, in the busy window too. -/
def Obligations.OtherAccessesAreNotPerformed : Prop :=
  ∀ (s : State) (width off : Nat) (v : Word), off < 0x1000 + s.cfg.bufSize → (width ≠ 32 ∨ off % 4 ≠ 0) →
    hostAccess (.read width off) s = .next { s with rdata := 0, aerr := true } ∧
    hostAccess (.write width off v) s = .next { s with aerr := true }

/-- R102: the model refuses an access at an offset beyond the window, and a step refuses in no other case.  That such
an access is refused whatever its width and alignment, and not answered as R103 says, is the model's reading
(log 7). -/
def Obligations.OnlyAccessesOutsideTheWindowAreRefused : Prop :=
  ∀ (s : State) (r : Refusal), step s = .refused r ↔
    r = .outsideWindow ∧ ∃ a rest, s.agenda = .host a :: rest ∧ 0x1000 + s.cfg.bufSize ≤ a.offset

/-- R56: every register of the map is found at its offset, and the word offsets of the register window that hold no
register are the reserved ones of the rule. -/
def Obligations.RegisterMapIsComplete : Prop :=
  (∀ r : Reg, Reg.ofOffset r.offset = some r) ∧
  ∀ off < 0x1000, off % 4 = 0 →
    (Reg.ofOffset off = none ↔ off = 0x01C ∨ (0x034 ≤ off ∧ off ≤ 0x03C) ∨ (0x078 ≤ off ∧ off ≤ 0x07C) ∨
      (0x090 ≤ off ∧ off ≤ 0x09C) ∨ (0x134 ≤ off ∧ off ≤ 0x13C) ∨ (0x178 ≤ off ∧ off ≤ 0xFFC))

/-- R33, R50, R51, R54, R55: what the computed registers read as: BUSY, DONE, AERR and ERR in their STATUS bits,
CCNEXT mod 2^32 in CCCTR, VALID and EXH in CCSTAT, ACC in the five ACC words with ACC4 below 4, READY and USED in
PSTAT, never both 1. -/
def Obligations.ComputedRegistersShowTheState : Prop :=
  ∀ s : State,
    (s.readReg .status).toNat =
      s.busy.toNat + 2 * s.done.toNat + 4 * s.aerr.toNat + 2 ^ 8 * s.err.code.toNat ∧
    (s.readReg .ccctr).toNat = s.ccnext % 2 ^ 32 ∧
    (s.readReg .ccstat).toNat = s.ccvalid.toNat + (if s.ccnext = 2 ^ 32 then 2 else 0) ∧
    (s.acc < 2 ^ 130 - 5 → wordsInt [s.readReg (.acc 0), s.readReg (.acc 1), s.readReg (.acc 2), s.readReg (.acc 3),
      s.readReg (.acc 4)] = s.acc ∧ (s.readReg (.acc 4)).toNat < 4) ∧
    (s.readReg .pstat).toNat = (if s.pstat = .ready then 1 else if s.pstat = .used then 2 else 0)

/-! ### Reset and the invariant -/

/-- R450, R451: after power-on reset, the first one or a later one, ID reads 0x43544B01 and every other register 0,
CCNEXT and ACC are 0, there is no context of either kind, the engine is idle and IRQ is 0.  That a later one may come
at any turn is the model's choice (log 9). -/
def Obligations.PowerOnResetValues : Prop :=
  ∀ t : State, ((∃ cfg agenda, t = State.powerOnWith cfg agenda) ∨
      ∃ (s : State) (rest : List Turn), s.agenda = .powerOn :: rest ∧ step s = .next t) →
    t.readReg .id = 0x43544B01 ∧ (∀ r : Reg, r ≠ .id → t.readReg r = 0) ∧ t.ccnext = 0 ∧ t.acc = 0 ∧
    t.ccvalid = false ∧ t.pstat = .none ∧ t.busy = false ∧ t.irq = false

/-- R452, R453: a host write to CTRL with SRST = 1, busy or not, puts every register at its reset value at once and
leaves every buffer byte unchanged; a pending command is cancelled: the engine's turn then does nothing, and DONE
is not set. -/
def Obligations.SoftResetKeepsOnlyTheBuffer : Prop :=
  ∀ (s : State) (v : Word), v.getLsbD 1 = true →
    ∃ t, hostAccess (.write 32 0x004 v) s = .next t ∧ t.readReg .id = 0x43544B01 ∧
      (∀ r : Reg, r ≠ .id → t.readReg r = 0) ∧ t.ccnext = 0 ∧ t.acc = 0 ∧ t.busy = false ∧ t.done = false ∧
      t.irq = false ∧ (∀ a, t.readByte a = s.readByte a) ∧ engineTurn t = .next t

/-- R450: the invariant holds after power-on reset, for every legal BUF_SIZE. -/
def Obligations.PowerOnMeetsTheInvariant : Prop :=
  ∀ (cfg : Config) (agenda : List Turn), cfg.Legal → Inv (State.powerOnWith cfg agenda)

/-- R10, R34, R50 to R55, R101: every step, of the host, the engine or a reset, keeps the invariant, and no step
changes BUF_SIZE. -/
def Obligations.EveryStepKeepsTheInvariant : Prop :=
  ∀ s t : State, Inv s → step s = .next t → Inv t ∧ t.cfg = s.cfg
end

