-- ==== Sys2Proof/Laws/Bytes.lean ====
section
/-! SUPPORT. Byte strings: lengths, the conversions of 00_scope.md R16 and the keystream over a byte string
(40_chacha20_core.md R209, R210). -/

namespace Sys2Proof.Machine

@[simp] theorem ser32_length (w : Word) : (ser32 w).length = 4 := rfl

@[simp] theorem serW_length (ws : List Word) : (serW ws).length = 4 * ws.length := by
  induction ws with
  | nil => rfl
  | cons w ws ih =>
    have : serW (w :: ws) = ser32 w ++ serW ws := rfl
    rw [this, List.length_append, ih, ser32_length, List.length_cons]
    omega

@[simp] theorem serN_length (k : Nat) : ∀ x, (serN x k).length = k := by
  induction k with
  | zero => intro x; rfl
  | succ k ih => intro x; simp [serN, ih]

@[simp] theorem zeros_length (n : Nat) : (zeros n).length = n := by simp [zeros]

@[simp] theorem xorBytes_length (A B : List Byte) : (xorBytes A B).length = min A.length B.length := by
  simp [xorBytes]

@[simp] theorem xorBytes_getElem (A B : List Byte) (k : Nat) (h : k < (xorBytes A B).length) :
    (xorBytes A B)[k] =
      A[k]'(by rw [xorBytes_length] at h; omega) ^^^ B[k]'(by rw [xorBytes_length] at h; omega) := by
  simp [xorBytes]

theorem leInt_lt (B : List Byte) : leInt B < 2 ^ (8 * B.length) := by
  induction B with
  | nil => simp [leInt]
  | cons b B ih =>
    have hb := b.isLt
    simp only [leInt, List.length_cons, Nat.mul_add, pow_add]
    omega

/-- An integer is the value of its little-endian bytes. -/
theorem leInt_serN (k : Nat) : ∀ x, leInt (serN x k) = x % 2 ^ (8 * k) := by
  induction k with
  | zero => intro x; simp [serN, leInt, Nat.mod_one]
  | succ k ih =>
    intro x
    have h : (2 : Nat) ^ (8 * (k + 1)) = 2 ^ 8 * 2 ^ (8 * k) := by rw [← pow_add]; congr 1; omega
    rw [serN, leInt, ih, h, Nat.mod_mul, BitVec.toNat_ofNat]

/-- A byte string is the little-endian bytes of its value. -/
theorem serN_leInt (B : List Byte) : serN (leInt B) B.length = B := by
  induction B with
  | nil => rfl
  | cons b B ih =>
    have hb := b.isLt
    have h₁ : BitVec.ofNat 8 (leInt (b :: B)) = b := by
      apply BitVec.eq_of_toNat_eq
      simp only [leInt, BitVec.toNat_ofNat]
      omega
    have h₂ : leInt (b :: B) / 2 ^ 8 = leInt B := by
      simp only [leInt]
      omega
    rw [List.length_cons, serN, h₁, h₂, ih]

theorem leInt_append (A B : List Byte) : leInt (A ++ B) = leInt A + 2 ^ (8 * A.length) * leInt B := by
  induction A with
  | nil => simp [leInt]
  | cons a A ih =>
    simp only [List.cons_append, leInt, ih, List.length_cons, Nat.mul_add, pow_add]
    ring

/-- The four bytes of a word give the word back. -/
theorem leInt_ser32 (w : Word) : leInt (ser32 w) = w.toNat := by
  have h := w.isLt
  simp only [ser32, leInt, BitVec.extractLsb'_toNat, Nat.shiftRight_eq_div_pow]
  omega

theorem leInt_serW (ws : List Word) : leInt (serW ws) = wordsInt ws := by
  induction ws with
  | nil => rfl
  | cons w ws ih =>
    have : serW (w :: ws) = ser32 w ++ serW ws := rfl
    rw [this, leInt_append, leInt_ser32, ih]
    rfl

theorem ceilDiv_zero (b : Nat) (hb : 0 < b) : ceilDiv 0 b = 0 := by
  simp only [ceilDiv, Nat.zero_add]
  exact Nat.div_eq_of_lt (by omega)

@[simp] theorem keystreamBlock_length (kw : Vector Word 8) (c : Word) (nw : Vector Word 3) :
    (keystreamBlock kw c nw).length = 64 := by
  simp [keystreamBlock]

theorem xorBlocks_length (kw : Vector Word 8) (nw : Vector Word 3) (nb : Nat) : ∀ (c : Nat) (M : List Byte),
    (xorBlocks kw nw nb c M).length = min M.length (64 * nb) := by
  induction nb with
  | zero => intro c M; simp [xorBlocks]
  | succ nb ih =>
    intro c M
    simp only [xorBlocks, List.length_append, xorBytes_length, keystreamBlock_length, ih, List.length_take,
      List.length_drop]
    omega

/-- Byte k of the output is byte k of the message XORed with byte k mod 64 of keystream block k / 64. -/
theorem xorBlocks_getElem (kw : Vector Word 8) (nw : Vector Word 3) (nb : Nat) :
    ∀ (c : Nat) (M : List Byte) (k : Nat) (h : k < (xorBlocks kw nw nb c M).length) (hM : k < M.length),
      (xorBlocks kw nw nb c M)[k] =
        M[k] ^^^ (keystreamBlock kw (BitVec.ofNat 32 (c + k / 64)) nw)[k % 64]'(by
          rw [keystreamBlock_length]; omega) := by
  induction nb with
  | zero => intro c M k h _; simp [xorBlocks] at h
  | succ nb ih =>
    intro c M k h hM
    have hl := xorBlocks_length kw nw (nb + 1) c M
    simp only [xorBlocks, List.getElem_append, xorBytes_length, keystreamBlock_length, List.length_take]
    split
    · rename_i hk
      have h₁ : k / 64 = 0 := by omega
      have h₂ : k % 64 = k := by omega
      simp [h₁, h₂]
    · rename_i hk
      obtain ⟨j, rfl⟩ : ∃ j, k = 64 + j := ⟨k - 64, by omega⟩
      have e₁ : 64 + j - min (min 64 M.length) 64 = j := by omega
      have e₂ : (64 + j) / 64 = 1 + j / 64 := by omega
      have e₃ : (64 + j) % 64 = j % 64 := by omega
      have hd : j < (xorBlocks kw nw nb (c + 1) (M.drop 64)).length := by
        rw [xorBlocks_length, List.length_drop]
        omega
      have hj : j < (M.drop 64).length := by rw [List.length_drop]; omega
      have := ih (c + 1) (M.drop 64) j hd hj
      simp only [e₁, e₂, e₃, this, List.getElem_drop, Nat.add_assoc]

@[simp] theorem xorKs_length (kw : Vector Word 8) (nw : Vector Word 3) (c : Nat) (M : List Byte) :
    (xorKs kw nw c M).1.length = M.length := by
  simp only [xorKs, xorBlocks_length, ceilDiv]
  omega

theorem xorKs_next (kw : Vector Word 8) (nw : Vector Word 3) (c : Nat) (M : List Byte) :
    (xorKs kw nw c M).2 = c + ceilDiv M.length 64 := rfl

/-- XORKS byte by byte (R210). -/
theorem xorKs_getElem (kw : Vector Word 8) (nw : Vector Word 3) (c : Nat) (M : List Byte) (k : Nat)
    (h : k < (xorKs kw nw c M).1.length) :
    (xorKs kw nw c M).1[k] =
      M[k]'(by rwa [xorKs_length] at h) ^^^
        (keystreamBlock kw (BitVec.ofNat 32 (c + k / 64)) nw)[k % 64]'(by rw [keystreamBlock_length]; omega) :=
  xorBlocks_getElem kw nw _ c M k h (by rwa [xorKs_length] at h)

end Sys2Proof.Machine
end

