-- ==== Sys2Proof/Laws/State.lean ====
section
/-! SUPPORT. One lemma per field per named update of the state, true by rfl. -/

namespace Sys2Proof.Machine

variable (s : State)

/-! finish: the status part of a completion (R403) -/
@[simp] theorem finish_ie (e : ErrCode) : (s.finish e).ie = s.ie := rfl
@[simp] theorem finish_busy (e : ErrCode) : (s.finish e).busy = false := rfl
@[simp] theorem finish_done (e : ErrCode) : (s.finish e).done = true := rfl
@[simp] theorem finish_aerr (e : ErrCode) : (s.finish e).aerr = s.aerr := rfl
@[simp] theorem finish_err (e : ErrCode) : (s.finish e).err = e := rfl
@[simp] theorem finish_lastcmd (e : ErrCode) : (s.finish e).lastcmd = s.lastcmd := rfl
@[simp] theorem finish_keyLen (e : ErrCode) : (s.finish e).keyLen = s.keyLen := rfl
@[simp] theorem finish_nonceLen (e : ErrCode) : (s.finish e).nonceLen = s.nonceLen := rfl
@[simp] theorem finish_tagLen (e : ErrCode) : (s.finish e).tagLen = s.tagLen := rfl
@[simp] theorem finish_counter (e : ErrCode) : (s.finish e).counter = s.counter := rfl
@[simp] theorem finish_src (e : ErrCode) : (s.finish e).src = s.src := rfl
@[simp] theorem finish_dst (e : ErrCode) : (s.finish e).dst = s.dst := rfl
@[simp] theorem finish_len (e : ErrCode) : (s.finish e).len = s.len := rfl
@[simp] theorem finish_aad (e : ErrCode) : (s.finish e).aad = s.aad := rfl
@[simp] theorem finish_aadlen (e : ErrCode) : (s.finish e).aadlen = s.aadlen := rfl
@[simp] theorem finish_key (e : ErrCode) : (s.finish e).key = s.key := rfl
@[simp] theorem finish_nonce (e : ErrCode) : (s.finish e).nonce = s.nonce := rfl
@[simp] theorem finish_tag (e : ErrCode) : (s.finish e).tag = s.tag := rfl
@[simp] theorem finish_subkey (e : ErrCode) : (s.finish e).subkey = s.subkey := rfl
@[simp] theorem finish_mat (e : ErrCode) : (s.finish e).mat = s.mat := rfl
@[simp] theorem finish_cckey (e : ErrCode) : (s.finish e).cckey = s.cckey := rfl
@[simp] theorem finish_ccnonce (e : ErrCode) : (s.finish e).ccnonce = s.ccnonce := rfl
@[simp] theorem finish_ccnext (e : ErrCode) : (s.finish e).ccnext = s.ccnext := rfl
@[simp] theorem finish_ccvalid (e : ErrCode) : (s.finish e).ccvalid = s.ccvalid := rfl
@[simp] theorem finish_pr (e : ErrCode) : (s.finish e).pr = s.pr := rfl
@[simp] theorem finish_ps (e : ErrCode) : (s.finish e).ps = s.ps := rfl
@[simp] theorem finish_acc (e : ErrCode) : (s.finish e).acc = s.acc := rfl
@[simp] theorem finish_pstat (e : ErrCode) : (s.finish e).pstat = s.pstat := rfl
@[simp] theorem finish_buf (e : ErrCode) : (s.finish e).buf = s.buf := rfl
@[simp] theorem finish_cfg (e : ErrCode) : (s.finish e).cfg = s.cfg := rfl
@[simp] theorem finish_powerOns (e : ErrCode) : (s.finish e).powerOns = s.powerOns := rfl
@[simp] theorem finish_rdata (e : ErrCode) : (s.finish e).rdata = s.rdata := rfl
@[simp] theorem finish_agenda (e : ErrCode) : (s.finish e).agenda = s.agenda := rfl

/-! completeError: an error completion (R404) -/
@[simp] theorem completeError_ie (e : ErrCode) : (s.completeError e).ie = s.ie := rfl
@[simp] theorem completeError_busy (e : ErrCode) : (s.completeError e).busy = false := rfl
@[simp] theorem completeError_done (e : ErrCode) : (s.completeError e).done = true := rfl
@[simp] theorem completeError_aerr (e : ErrCode) : (s.completeError e).aerr = s.aerr := rfl
@[simp] theorem completeError_err (e : ErrCode) : (s.completeError e).err = e := rfl
@[simp] theorem completeError_lastcmd (e : ErrCode) : (s.completeError e).lastcmd = s.lastcmd := rfl
@[simp] theorem completeError_keyLen (e : ErrCode) : (s.completeError e).keyLen = s.keyLen := rfl
@[simp] theorem completeError_nonceLen (e : ErrCode) : (s.completeError e).nonceLen = s.nonceLen := rfl
@[simp] theorem completeError_tagLen (e : ErrCode) : (s.completeError e).tagLen = s.tagLen := rfl
@[simp] theorem completeError_counter (e : ErrCode) : (s.completeError e).counter = s.counter := rfl
@[simp] theorem completeError_src (e : ErrCode) : (s.completeError e).src = s.src := rfl
@[simp] theorem completeError_dst (e : ErrCode) : (s.completeError e).dst = s.dst := rfl
@[simp] theorem completeError_len (e : ErrCode) : (s.completeError e).len = s.len := rfl
@[simp] theorem completeError_aad (e : ErrCode) : (s.completeError e).aad = s.aad := rfl
@[simp] theorem completeError_aadlen (e : ErrCode) : (s.completeError e).aadlen = s.aadlen := rfl
@[simp] theorem completeError_key (e : ErrCode) : (s.completeError e).key = s.key := rfl
@[simp] theorem completeError_nonce (e : ErrCode) : (s.completeError e).nonce = s.nonce := rfl
@[simp] theorem completeError_tag (e : ErrCode) : (s.completeError e).tag = s.tag := rfl
@[simp] theorem completeError_subkey (e : ErrCode) : (s.completeError e).subkey = s.subkey := rfl
@[simp] theorem completeError_mat (e : ErrCode) : (s.completeError e).mat = s.mat := rfl
@[simp] theorem completeError_cckey (e : ErrCode) : (s.completeError e).cckey = s.cckey := rfl
@[simp] theorem completeError_ccnonce (e : ErrCode) : (s.completeError e).ccnonce = s.ccnonce := rfl
@[simp] theorem completeError_ccnext (e : ErrCode) : (s.completeError e).ccnext = s.ccnext := rfl
@[simp] theorem completeError_ccvalid (e : ErrCode) : (s.completeError e).ccvalid = s.ccvalid := rfl
@[simp] theorem completeError_pr (e : ErrCode) : (s.completeError e).pr = s.pr := rfl
@[simp] theorem completeError_ps (e : ErrCode) : (s.completeError e).ps = s.ps := rfl
@[simp] theorem completeError_acc (e : ErrCode) : (s.completeError e).acc = s.acc := rfl
@[simp] theorem completeError_pstat (e : ErrCode) : (s.completeError e).pstat = s.pstat := rfl
@[simp] theorem completeError_buf (e : ErrCode) : (s.completeError e).buf = s.buf := rfl
@[simp] theorem completeError_cfg (e : ErrCode) : (s.completeError e).cfg = s.cfg := rfl
@[simp] theorem completeError_powerOns (e : ErrCode) : (s.completeError e).powerOns = s.powerOns := rfl
@[simp] theorem completeError_rdata (e : ErrCode) : (s.completeError e).rdata = s.rdata := rfl
@[simp] theorem completeError_agenda (e : ErrCode) : (s.completeError e).agenda = s.agenda := rfl

/-! issue: issue (R34) -/
@[simp] theorem issue_ie (w : Word) : (s.issue w).ie = s.ie := rfl
@[simp] theorem issue_busy (w : Word) : (s.issue w).busy = true := rfl
@[simp] theorem issue_done (w : Word) : (s.issue w).done = false := rfl
@[simp] theorem issue_aerr (w : Word) : (s.issue w).aerr = s.aerr := rfl
@[simp] theorem issue_err (w : Word) : (s.issue w).err = .ok := rfl
@[simp] theorem issue_lastcmd (w : Word) : (s.issue w).lastcmd = w := rfl
@[simp] theorem issue_keyLen (w : Word) : (s.issue w).keyLen = s.keyLen := rfl
@[simp] theorem issue_nonceLen (w : Word) : (s.issue w).nonceLen = s.nonceLen := rfl
@[simp] theorem issue_tagLen (w : Word) : (s.issue w).tagLen = s.tagLen := rfl
@[simp] theorem issue_counter (w : Word) : (s.issue w).counter = s.counter := rfl
@[simp] theorem issue_src (w : Word) : (s.issue w).src = s.src := rfl
@[simp] theorem issue_dst (w : Word) : (s.issue w).dst = s.dst := rfl
@[simp] theorem issue_len (w : Word) : (s.issue w).len = s.len := rfl
@[simp] theorem issue_aad (w : Word) : (s.issue w).aad = s.aad := rfl
@[simp] theorem issue_aadlen (w : Word) : (s.issue w).aadlen = s.aadlen := rfl
@[simp] theorem issue_key (w : Word) : (s.issue w).key = s.key := rfl
@[simp] theorem issue_nonce (w : Word) : (s.issue w).nonce = s.nonce := rfl
@[simp] theorem issue_tag (w : Word) : (s.issue w).tag = s.tag := rfl
@[simp] theorem issue_subkey (w : Word) : (s.issue w).subkey = s.subkey := rfl
@[simp] theorem issue_mat (w : Word) : (s.issue w).mat = s.mat := rfl
@[simp] theorem issue_cckey (w : Word) : (s.issue w).cckey = s.cckey := rfl
@[simp] theorem issue_ccnonce (w : Word) : (s.issue w).ccnonce = s.ccnonce := rfl
@[simp] theorem issue_ccnext (w : Word) : (s.issue w).ccnext = s.ccnext := rfl
@[simp] theorem issue_ccvalid (w : Word) : (s.issue w).ccvalid = s.ccvalid := rfl
@[simp] theorem issue_pr (w : Word) : (s.issue w).pr = s.pr := rfl
@[simp] theorem issue_ps (w : Word) : (s.issue w).ps = s.ps := rfl
@[simp] theorem issue_acc (w : Word) : (s.issue w).acc = s.acc := rfl
@[simp] theorem issue_pstat (w : Word) : (s.issue w).pstat = s.pstat := rfl
@[simp] theorem issue_buf (w : Word) : (s.issue w).buf = s.buf := rfl
@[simp] theorem issue_cfg (w : Word) : (s.issue w).cfg = s.cfg := rfl
@[simp] theorem issue_powerOns (w : Word) : (s.issue w).powerOns = s.powerOns := rfl
@[simp] theorem issue_rdata (w : Word) : (s.issue w).rdata = s.rdata := rfl
@[simp] theorem issue_agenda (w : Word) : (s.issue w).agenda = s.agenda := rfl

/-! memWrite: a buffer write (R17) -/
@[simp] theorem memWrite_ie (a : Nat) (B : List Byte) : (s.memWrite a B).ie = s.ie := rfl
@[simp] theorem memWrite_busy (a : Nat) (B : List Byte) : (s.memWrite a B).busy = s.busy := rfl
@[simp] theorem memWrite_done (a : Nat) (B : List Byte) : (s.memWrite a B).done = s.done := rfl
@[simp] theorem memWrite_aerr (a : Nat) (B : List Byte) : (s.memWrite a B).aerr = s.aerr := rfl
@[simp] theorem memWrite_err (a : Nat) (B : List Byte) : (s.memWrite a B).err = s.err := rfl
@[simp] theorem memWrite_lastcmd (a : Nat) (B : List Byte) : (s.memWrite a B).lastcmd = s.lastcmd := rfl
@[simp] theorem memWrite_keyLen (a : Nat) (B : List Byte) : (s.memWrite a B).keyLen = s.keyLen := rfl
@[simp] theorem memWrite_nonceLen (a : Nat) (B : List Byte) : (s.memWrite a B).nonceLen = s.nonceLen := rfl
@[simp] theorem memWrite_tagLen (a : Nat) (B : List Byte) : (s.memWrite a B).tagLen = s.tagLen := rfl
@[simp] theorem memWrite_counter (a : Nat) (B : List Byte) : (s.memWrite a B).counter = s.counter := rfl
@[simp] theorem memWrite_src (a : Nat) (B : List Byte) : (s.memWrite a B).src = s.src := rfl
@[simp] theorem memWrite_dst (a : Nat) (B : List Byte) : (s.memWrite a B).dst = s.dst := rfl
@[simp] theorem memWrite_len (a : Nat) (B : List Byte) : (s.memWrite a B).len = s.len := rfl
@[simp] theorem memWrite_aad (a : Nat) (B : List Byte) : (s.memWrite a B).aad = s.aad := rfl
@[simp] theorem memWrite_aadlen (a : Nat) (B : List Byte) : (s.memWrite a B).aadlen = s.aadlen := rfl
@[simp] theorem memWrite_key (a : Nat) (B : List Byte) : (s.memWrite a B).key = s.key := rfl
@[simp] theorem memWrite_nonce (a : Nat) (B : List Byte) : (s.memWrite a B).nonce = s.nonce := rfl
@[simp] theorem memWrite_tag (a : Nat) (B : List Byte) : (s.memWrite a B).tag = s.tag := rfl
@[simp] theorem memWrite_subkey (a : Nat) (B : List Byte) : (s.memWrite a B).subkey = s.subkey := rfl
@[simp] theorem memWrite_mat (a : Nat) (B : List Byte) : (s.memWrite a B).mat = s.mat := rfl
@[simp] theorem memWrite_cckey (a : Nat) (B : List Byte) : (s.memWrite a B).cckey = s.cckey := rfl
@[simp] theorem memWrite_ccnonce (a : Nat) (B : List Byte) : (s.memWrite a B).ccnonce = s.ccnonce := rfl
@[simp] theorem memWrite_ccnext (a : Nat) (B : List Byte) : (s.memWrite a B).ccnext = s.ccnext := rfl
@[simp] theorem memWrite_ccvalid (a : Nat) (B : List Byte) : (s.memWrite a B).ccvalid = s.ccvalid := rfl
@[simp] theorem memWrite_pr (a : Nat) (B : List Byte) : (s.memWrite a B).pr = s.pr := rfl
@[simp] theorem memWrite_ps (a : Nat) (B : List Byte) : (s.memWrite a B).ps = s.ps := rfl
@[simp] theorem memWrite_acc (a : Nat) (B : List Byte) : (s.memWrite a B).acc = s.acc := rfl
@[simp] theorem memWrite_pstat (a : Nat) (B : List Byte) : (s.memWrite a B).pstat = s.pstat := rfl
@[simp] theorem memWrite_buf (a : Nat) (B : List Byte) : (s.memWrite a B).buf = s.buf.putBytes a B := rfl
@[simp] theorem memWrite_cfg (a : Nat) (B : List Byte) : (s.memWrite a B).cfg = s.cfg := rfl
@[simp] theorem memWrite_powerOns (a : Nat) (B : List Byte) : (s.memWrite a B).powerOns = s.powerOns := rfl
@[simp] theorem memWrite_rdata (a : Nat) (B : List Byte) : (s.memWrite a B).rdata = s.rdata := rfl
@[simp] theorem memWrite_agenda (a : Nat) (B : List Byte) : (s.memWrite a B).agenda = s.agenda := rfl

/-! answer: a host read (R61) -/
@[simp] theorem answer_ie (v : Word) : (s.answer v).ie = s.ie := rfl
@[simp] theorem answer_busy (v : Word) : (s.answer v).busy = s.busy := rfl
@[simp] theorem answer_done (v : Word) : (s.answer v).done = s.done := rfl
@[simp] theorem answer_aerr (v : Word) : (s.answer v).aerr = s.aerr := rfl
@[simp] theorem answer_err (v : Word) : (s.answer v).err = s.err := rfl
@[simp] theorem answer_lastcmd (v : Word) : (s.answer v).lastcmd = s.lastcmd := rfl
@[simp] theorem answer_keyLen (v : Word) : (s.answer v).keyLen = s.keyLen := rfl
@[simp] theorem answer_nonceLen (v : Word) : (s.answer v).nonceLen = s.nonceLen := rfl
@[simp] theorem answer_tagLen (v : Word) : (s.answer v).tagLen = s.tagLen := rfl
@[simp] theorem answer_counter (v : Word) : (s.answer v).counter = s.counter := rfl
@[simp] theorem answer_src (v : Word) : (s.answer v).src = s.src := rfl
@[simp] theorem answer_dst (v : Word) : (s.answer v).dst = s.dst := rfl
@[simp] theorem answer_len (v : Word) : (s.answer v).len = s.len := rfl
@[simp] theorem answer_aad (v : Word) : (s.answer v).aad = s.aad := rfl
@[simp] theorem answer_aadlen (v : Word) : (s.answer v).aadlen = s.aadlen := rfl
@[simp] theorem answer_key (v : Word) : (s.answer v).key = s.key := rfl
@[simp] theorem answer_nonce (v : Word) : (s.answer v).nonce = s.nonce := rfl
@[simp] theorem answer_tag (v : Word) : (s.answer v).tag = s.tag := rfl
@[simp] theorem answer_subkey (v : Word) : (s.answer v).subkey = s.subkey := rfl
@[simp] theorem answer_mat (v : Word) : (s.answer v).mat = s.mat := rfl
@[simp] theorem answer_cckey (v : Word) : (s.answer v).cckey = s.cckey := rfl
@[simp] theorem answer_ccnonce (v : Word) : (s.answer v).ccnonce = s.ccnonce := rfl
@[simp] theorem answer_ccnext (v : Word) : (s.answer v).ccnext = s.ccnext := rfl
@[simp] theorem answer_ccvalid (v : Word) : (s.answer v).ccvalid = s.ccvalid := rfl
@[simp] theorem answer_pr (v : Word) : (s.answer v).pr = s.pr := rfl
@[simp] theorem answer_ps (v : Word) : (s.answer v).ps = s.ps := rfl
@[simp] theorem answer_acc (v : Word) : (s.answer v).acc = s.acc := rfl
@[simp] theorem answer_pstat (v : Word) : (s.answer v).pstat = s.pstat := rfl
@[simp] theorem answer_buf (v : Word) : (s.answer v).buf = s.buf := rfl
@[simp] theorem answer_cfg (v : Word) : (s.answer v).cfg = s.cfg := rfl
@[simp] theorem answer_powerOns (v : Word) : (s.answer v).powerOns = s.powerOns := rfl
@[simp] theorem answer_rdata (v : Word) : (s.answer v).rdata = v := rfl
@[simp] theorem answer_agenda (v : Word) : (s.answer v).agenda = s.agenda := rfl

/-! writeStatus: a host write to STATUS (R33) -/
@[simp] theorem writeStatus_ie (v : Word) : (s.writeStatus v).ie = s.ie := rfl
@[simp] theorem writeStatus_busy (v : Word) : (s.writeStatus v).busy = s.busy := rfl
@[simp] theorem writeStatus_done (v : Word) : (s.writeStatus v).done = (s.done && !v.getLsbD 1) := rfl
@[simp] theorem writeStatus_aerr (v : Word) : (s.writeStatus v).aerr = (s.aerr && !v.getLsbD 2) := rfl
@[simp] theorem writeStatus_err (v : Word) : (s.writeStatus v).err = s.err := rfl
@[simp] theorem writeStatus_lastcmd (v : Word) : (s.writeStatus v).lastcmd = s.lastcmd := rfl
@[simp] theorem writeStatus_keyLen (v : Word) : (s.writeStatus v).keyLen = s.keyLen := rfl
@[simp] theorem writeStatus_nonceLen (v : Word) : (s.writeStatus v).nonceLen = s.nonceLen := rfl
@[simp] theorem writeStatus_tagLen (v : Word) : (s.writeStatus v).tagLen = s.tagLen := rfl
@[simp] theorem writeStatus_counter (v : Word) : (s.writeStatus v).counter = s.counter := rfl
@[simp] theorem writeStatus_src (v : Word) : (s.writeStatus v).src = s.src := rfl
@[simp] theorem writeStatus_dst (v : Word) : (s.writeStatus v).dst = s.dst := rfl
@[simp] theorem writeStatus_len (v : Word) : (s.writeStatus v).len = s.len := rfl
@[simp] theorem writeStatus_aad (v : Word) : (s.writeStatus v).aad = s.aad := rfl
@[simp] theorem writeStatus_aadlen (v : Word) : (s.writeStatus v).aadlen = s.aadlen := rfl
@[simp] theorem writeStatus_key (v : Word) : (s.writeStatus v).key = s.key := rfl
@[simp] theorem writeStatus_nonce (v : Word) : (s.writeStatus v).nonce = s.nonce := rfl
@[simp] theorem writeStatus_tag (v : Word) : (s.writeStatus v).tag = s.tag := rfl
@[simp] theorem writeStatus_subkey (v : Word) : (s.writeStatus v).subkey = s.subkey := rfl
@[simp] theorem writeStatus_mat (v : Word) : (s.writeStatus v).mat = s.mat := rfl
@[simp] theorem writeStatus_cckey (v : Word) : (s.writeStatus v).cckey = s.cckey := rfl
@[simp] theorem writeStatus_ccnonce (v : Word) : (s.writeStatus v).ccnonce = s.ccnonce := rfl
@[simp] theorem writeStatus_ccnext (v : Word) : (s.writeStatus v).ccnext = s.ccnext := rfl
@[simp] theorem writeStatus_ccvalid (v : Word) : (s.writeStatus v).ccvalid = s.ccvalid := rfl
@[simp] theorem writeStatus_pr (v : Word) : (s.writeStatus v).pr = s.pr := rfl
@[simp] theorem writeStatus_ps (v : Word) : (s.writeStatus v).ps = s.ps := rfl
@[simp] theorem writeStatus_acc (v : Word) : (s.writeStatus v).acc = s.acc := rfl
@[simp] theorem writeStatus_pstat (v : Word) : (s.writeStatus v).pstat = s.pstat := rfl
@[simp] theorem writeStatus_buf (v : Word) : (s.writeStatus v).buf = s.buf := rfl
@[simp] theorem writeStatus_cfg (v : Word) : (s.writeStatus v).cfg = s.cfg := rfl
@[simp] theorem writeStatus_powerOns (v : Word) : (s.writeStatus v).powerOns = s.powerOns := rfl
@[simp] theorem writeStatus_rdata (v : Word) : (s.writeStatus v).rdata = s.rdata := rfl
@[simp] theorem writeStatus_agenda (v : Word) : (s.writeStatus v).agenda = s.agenda := rfl

/-! writeLencfg: a host write to LENCFG (R36) -/
@[simp] theorem writeLencfg_ie (v : Word) : (s.writeLencfg v).ie = s.ie := rfl
@[simp] theorem writeLencfg_busy (v : Word) : (s.writeLencfg v).busy = s.busy := rfl
@[simp] theorem writeLencfg_done (v : Word) : (s.writeLencfg v).done = s.done := rfl
@[simp] theorem writeLencfg_aerr (v : Word) : (s.writeLencfg v).aerr = s.aerr := rfl
@[simp] theorem writeLencfg_err (v : Word) : (s.writeLencfg v).err = s.err := rfl
@[simp] theorem writeLencfg_lastcmd (v : Word) : (s.writeLencfg v).lastcmd = s.lastcmd := rfl
@[simp] theorem writeLencfg_keyLen (v : Word) : (s.writeLencfg v).keyLen = v.extractLsb' 0 8 := rfl
@[simp] theorem writeLencfg_nonceLen (v : Word) : (s.writeLencfg v).nonceLen = v.extractLsb' 8 8 := rfl
@[simp] theorem writeLencfg_tagLen (v : Word) : (s.writeLencfg v).tagLen = v.extractLsb' 16 8 := rfl
@[simp] theorem writeLencfg_counter (v : Word) : (s.writeLencfg v).counter = s.counter := rfl
@[simp] theorem writeLencfg_src (v : Word) : (s.writeLencfg v).src = s.src := rfl
@[simp] theorem writeLencfg_dst (v : Word) : (s.writeLencfg v).dst = s.dst := rfl
@[simp] theorem writeLencfg_len (v : Word) : (s.writeLencfg v).len = s.len := rfl
@[simp] theorem writeLencfg_aad (v : Word) : (s.writeLencfg v).aad = s.aad := rfl
@[simp] theorem writeLencfg_aadlen (v : Word) : (s.writeLencfg v).aadlen = s.aadlen := rfl
@[simp] theorem writeLencfg_key (v : Word) : (s.writeLencfg v).key = s.key := rfl
@[simp] theorem writeLencfg_nonce (v : Word) : (s.writeLencfg v).nonce = s.nonce := rfl
@[simp] theorem writeLencfg_tag (v : Word) : (s.writeLencfg v).tag = s.tag := rfl
@[simp] theorem writeLencfg_subkey (v : Word) : (s.writeLencfg v).subkey = s.subkey := rfl
@[simp] theorem writeLencfg_mat (v : Word) : (s.writeLencfg v).mat = s.mat := rfl
@[simp] theorem writeLencfg_cckey (v : Word) : (s.writeLencfg v).cckey = s.cckey := rfl
@[simp] theorem writeLencfg_ccnonce (v : Word) : (s.writeLencfg v).ccnonce = s.ccnonce := rfl
@[simp] theorem writeLencfg_ccnext (v : Word) : (s.writeLencfg v).ccnext = s.ccnext := rfl
@[simp] theorem writeLencfg_ccvalid (v : Word) : (s.writeLencfg v).ccvalid = s.ccvalid := rfl
@[simp] theorem writeLencfg_pr (v : Word) : (s.writeLencfg v).pr = s.pr := rfl
@[simp] theorem writeLencfg_ps (v : Word) : (s.writeLencfg v).ps = s.ps := rfl
@[simp] theorem writeLencfg_acc (v : Word) : (s.writeLencfg v).acc = s.acc := rfl
@[simp] theorem writeLencfg_pstat (v : Word) : (s.writeLencfg v).pstat = s.pstat := rfl
@[simp] theorem writeLencfg_buf (v : Word) : (s.writeLencfg v).buf = s.buf := rfl
@[simp] theorem writeLencfg_cfg (v : Word) : (s.writeLencfg v).cfg = s.cfg := rfl
@[simp] theorem writeLencfg_powerOns (v : Word) : (s.writeLencfg v).powerOns = s.powerOns := rfl
@[simp] theorem writeLencfg_rdata (v : Word) : (s.writeLencfg v).rdata = s.rdata := rfl
@[simp] theorem writeLencfg_agenda (v : Word) : (s.writeLencfg v).agenda = s.agenda := rfl

/-! loadContext: loading the ChaCha20 context (R220) -/
@[simp] theorem loadContext_ie (kw : Vector Word 8) (nw : Vector Word 3) : (State.loadContext kw nw s).ie = s.ie := rfl
@[simp] theorem loadContext_busy (kw : Vector Word 8) (nw : Vector Word 3) : (State.loadContext kw nw s).busy = s.busy := rfl
@[simp] theorem loadContext_done (kw : Vector Word 8) (nw : Vector Word 3) : (State.loadContext kw nw s).done = s.done := rfl
@[simp] theorem loadContext_aerr (kw : Vector Word 8) (nw : Vector Word 3) : (State.loadContext kw nw s).aerr = s.aerr := rfl
@[simp] theorem loadContext_err (kw : Vector Word 8) (nw : Vector Word 3) : (State.loadContext kw nw s).err = s.err := rfl
@[simp] theorem loadContext_lastcmd (kw : Vector Word 8) (nw : Vector Word 3) : (State.loadContext kw nw s).lastcmd = s.lastcmd := rfl
@[simp] theorem loadContext_keyLen (kw : Vector Word 8) (nw : Vector Word 3) : (State.loadContext kw nw s).keyLen = s.keyLen := rfl
@[simp] theorem loadContext_nonceLen (kw : Vector Word 8) (nw : Vector Word 3) : (State.loadContext kw nw s).nonceLen = s.nonceLen := rfl
@[simp] theorem loadContext_tagLen (kw : Vector Word 8) (nw : Vector Word 3) : (State.loadContext kw nw s).tagLen = s.tagLen := rfl
@[simp] theorem loadContext_counter (kw : Vector Word 8) (nw : Vector Word 3) : (State.loadContext kw nw s).counter = s.counter := rfl
@[simp] theorem loadContext_src (kw : Vector Word 8) (nw : Vector Word 3) : (State.loadContext kw nw s).src = s.src := rfl
@[simp] theorem loadContext_dst (kw : Vector Word 8) (nw : Vector Word 3) : (State.loadContext kw nw s).dst = s.dst := rfl
@[simp] theorem loadContext_len (kw : Vector Word 8) (nw : Vector Word 3) : (State.loadContext kw nw s).len = s.len := rfl
@[simp] theorem loadContext_aad (kw : Vector Word 8) (nw : Vector Word 3) : (State.loadContext kw nw s).aad = s.aad := rfl
@[simp] theorem loadContext_aadlen (kw : Vector Word 8) (nw : Vector Word 3) : (State.loadContext kw nw s).aadlen = s.aadlen := rfl
@[simp] theorem loadContext_key (kw : Vector Word 8) (nw : Vector Word 3) : (State.loadContext kw nw s).key = s.key := rfl
@[simp] theorem loadContext_nonce (kw : Vector Word 8) (nw : Vector Word 3) : (State.loadContext kw nw s).nonce = s.nonce := rfl
@[simp] theorem loadContext_tag (kw : Vector Word 8) (nw : Vector Word 3) : (State.loadContext kw nw s).tag = s.tag := rfl
@[simp] theorem loadContext_subkey (kw : Vector Word 8) (nw : Vector Word 3) : (State.loadContext kw nw s).subkey = s.subkey := rfl
@[simp] theorem loadContext_mat (kw : Vector Word 8) (nw : Vector Word 3) : (State.loadContext kw nw s).mat = s.mat := rfl
@[simp] theorem loadContext_cckey (kw : Vector Word 8) (nw : Vector Word 3) : (State.loadContext kw nw s).cckey = kw := rfl
@[simp] theorem loadContext_ccnonce (kw : Vector Word 8) (nw : Vector Word 3) : (State.loadContext kw nw s).ccnonce = nw := rfl
@[simp] theorem loadContext_ccnext (kw : Vector Word 8) (nw : Vector Word 3) : (State.loadContext kw nw s).ccnext = s.counter.toNat := rfl
@[simp] theorem loadContext_ccvalid (kw : Vector Word 8) (nw : Vector Word 3) : (State.loadContext kw nw s).ccvalid = true := rfl
@[simp] theorem loadContext_pr (kw : Vector Word 8) (nw : Vector Word 3) : (State.loadContext kw nw s).pr = s.pr := rfl
@[simp] theorem loadContext_ps (kw : Vector Word 8) (nw : Vector Word 3) : (State.loadContext kw nw s).ps = s.ps := rfl
@[simp] theorem loadContext_acc (kw : Vector Word 8) (nw : Vector Word 3) : (State.loadContext kw nw s).acc = s.acc := rfl
@[simp] theorem loadContext_pstat (kw : Vector Word 8) (nw : Vector Word 3) : (State.loadContext kw nw s).pstat = s.pstat := rfl
@[simp] theorem loadContext_buf (kw : Vector Word 8) (nw : Vector Word 3) : (State.loadContext kw nw s).buf = s.buf := rfl
@[simp] theorem loadContext_cfg (kw : Vector Word 8) (nw : Vector Word 3) : (State.loadContext kw nw s).cfg = s.cfg := rfl
@[simp] theorem loadContext_powerOns (kw : Vector Word 8) (nw : Vector Word 3) : (State.loadContext kw nw s).powerOns = s.powerOns := rfl
@[simp] theorem loadContext_rdata (kw : Vector Word 8) (nw : Vector Word 3) : (State.loadContext kw nw s).rdata = s.rdata := rfl
@[simp] theorem loadContext_agenda (kw : Vector Word 8) (nw : Vector Word 3) : (State.loadContext kw nw s).agenda = s.agenda := rfl

/-! mapMatrix: a function of STATE (R47) -/
@[simp] theorem mapMatrix_ie (f : Vector Word 16 → Vector Word 16) : (State.mapMatrix f s).ie = s.ie := rfl
@[simp] theorem mapMatrix_busy (f : Vector Word 16 → Vector Word 16) : (State.mapMatrix f s).busy = s.busy := rfl
@[simp] theorem mapMatrix_done (f : Vector Word 16 → Vector Word 16) : (State.mapMatrix f s).done = s.done := rfl
@[simp] theorem mapMatrix_aerr (f : Vector Word 16 → Vector Word 16) : (State.mapMatrix f s).aerr = s.aerr := rfl
@[simp] theorem mapMatrix_err (f : Vector Word 16 → Vector Word 16) : (State.mapMatrix f s).err = s.err := rfl
@[simp] theorem mapMatrix_lastcmd (f : Vector Word 16 → Vector Word 16) : (State.mapMatrix f s).lastcmd = s.lastcmd := rfl
@[simp] theorem mapMatrix_keyLen (f : Vector Word 16 → Vector Word 16) : (State.mapMatrix f s).keyLen = s.keyLen := rfl
@[simp] theorem mapMatrix_nonceLen (f : Vector Word 16 → Vector Word 16) : (State.mapMatrix f s).nonceLen = s.nonceLen := rfl
@[simp] theorem mapMatrix_tagLen (f : Vector Word 16 → Vector Word 16) : (State.mapMatrix f s).tagLen = s.tagLen := rfl
@[simp] theorem mapMatrix_counter (f : Vector Word 16 → Vector Word 16) : (State.mapMatrix f s).counter = s.counter := rfl
@[simp] theorem mapMatrix_src (f : Vector Word 16 → Vector Word 16) : (State.mapMatrix f s).src = s.src := rfl
@[simp] theorem mapMatrix_dst (f : Vector Word 16 → Vector Word 16) : (State.mapMatrix f s).dst = s.dst := rfl
@[simp] theorem mapMatrix_len (f : Vector Word 16 → Vector Word 16) : (State.mapMatrix f s).len = s.len := rfl
@[simp] theorem mapMatrix_aad (f : Vector Word 16 → Vector Word 16) : (State.mapMatrix f s).aad = s.aad := rfl
@[simp] theorem mapMatrix_aadlen (f : Vector Word 16 → Vector Word 16) : (State.mapMatrix f s).aadlen = s.aadlen := rfl
@[simp] theorem mapMatrix_key (f : Vector Word 16 → Vector Word 16) : (State.mapMatrix f s).key = s.key := rfl
@[simp] theorem mapMatrix_nonce (f : Vector Word 16 → Vector Word 16) : (State.mapMatrix f s).nonce = s.nonce := rfl
@[simp] theorem mapMatrix_tag (f : Vector Word 16 → Vector Word 16) : (State.mapMatrix f s).tag = s.tag := rfl
@[simp] theorem mapMatrix_subkey (f : Vector Word 16 → Vector Word 16) : (State.mapMatrix f s).subkey = s.subkey := rfl
@[simp] theorem mapMatrix_mat (f : Vector Word 16 → Vector Word 16) : (State.mapMatrix f s).mat = f s.mat := rfl
@[simp] theorem mapMatrix_cckey (f : Vector Word 16 → Vector Word 16) : (State.mapMatrix f s).cckey = s.cckey := rfl
@[simp] theorem mapMatrix_ccnonce (f : Vector Word 16 → Vector Word 16) : (State.mapMatrix f s).ccnonce = s.ccnonce := rfl
@[simp] theorem mapMatrix_ccnext (f : Vector Word 16 → Vector Word 16) : (State.mapMatrix f s).ccnext = s.ccnext := rfl
@[simp] theorem mapMatrix_ccvalid (f : Vector Word 16 → Vector Word 16) : (State.mapMatrix f s).ccvalid = s.ccvalid := rfl
@[simp] theorem mapMatrix_pr (f : Vector Word 16 → Vector Word 16) : (State.mapMatrix f s).pr = s.pr := rfl
@[simp] theorem mapMatrix_ps (f : Vector Word 16 → Vector Word 16) : (State.mapMatrix f s).ps = s.ps := rfl
@[simp] theorem mapMatrix_acc (f : Vector Word 16 → Vector Word 16) : (State.mapMatrix f s).acc = s.acc := rfl
@[simp] theorem mapMatrix_pstat (f : Vector Word 16 → Vector Word 16) : (State.mapMatrix f s).pstat = s.pstat := rfl
@[simp] theorem mapMatrix_buf (f : Vector Word 16 → Vector Word 16) : (State.mapMatrix f s).buf = s.buf := rfl
@[simp] theorem mapMatrix_cfg (f : Vector Word 16 → Vector Word 16) : (State.mapMatrix f s).cfg = s.cfg := rfl
@[simp] theorem mapMatrix_powerOns (f : Vector Word 16 → Vector Word 16) : (State.mapMatrix f s).powerOns = s.powerOns := rfl
@[simp] theorem mapMatrix_rdata (f : Vector Word 16 → Vector Word 16) : (State.mapMatrix f s).rdata = s.rdata := rfl
@[simp] theorem mapMatrix_agenda (f : Vector Word 16 → Vector Word 16) : (State.mapMatrix f s).agenda = s.agenda := rfl

end Sys2Proof.Machine
end

