-- ==== Sys2Proof/Laws/Memory.lean ====
section
/-! SUPPORT. The data buffer: what a read gives after a write, and that every operation keeps the canonical
form (20_memory.md R101, R105, R118). -/

namespace Sys2Proof.Machine

theorem find_put (m : Memory) (a b : Nat) (v : Byte) :
    (m.put a v).find b = if a = b then some v else m.find b := by
  induction m with
  | nil => simp [Memory.put, Memory.find]
  | cons c m ih =>
    unfold Memory.put
    split
    · simp [Memory.find]
    · split
      · rename_i h
        subst h
        simp only [Memory.find]
        split <;> simp_all
      · rename_i h
        simp only [Memory.find, ih]
        by_cases hcb : c.1 = b
        · have : a ≠ b := fun hab => h (by rw [hcb, hab])
          simp [hcb, this]
        · simp [hcb]

/-- A read of the list after `putBytes`: the byte written there, else what was there. -/
theorem find_putBytes (B : List Byte) : ∀ (m : Memory) (a b : Nat),
    (m.putBytes a B).find b = if a ≤ b ∧ b < a + B.length then B[b - a]? else m.find b := by
  induction B with
  | nil =>
    intro m a b
    have h : ¬(a ≤ b ∧ b < a + ([] : List Byte).length) := by
      rw [List.length_nil]
      omega
    simp only [Memory.putBytes, if_neg h]
  | cons x B ih =>
    intro m a b
    simp only [Memory.putBytes, ih, find_put, List.length_cons]
    by_cases h : a = b
    · subst h
      simp
    · by_cases h₃ : a + 1 ≤ b ∧ b < a + 1 + B.length
      · have h₂ : a ≤ b ∧ b < a + (B.length + 1) := by omega
        obtain ⟨k, rfl⟩ : ∃ k, b = a + 1 + k := ⟨b - (a + 1), by omega⟩
        have e₁ : a + 1 + k - (a + 1) = k := by omega
        have e₂ : a + 1 + k - a = k + 1 := by omega
        simp only [if_pos h₃, if_pos h₂, e₁, e₂, List.getElem?_cons_succ]
      · have h₂ : ¬(a ≤ b ∧ b < a + (B.length + 1)) := by omega
        simp only [if_neg h₃, if_neg h₂, if_neg h]

theorem mem_put {m : Memory} {a : Nat} {v : Byte} {c : Host.Cell} (h : c ∈ m.put a v) :
    c = (a, v) ∨ c ∈ m := by
  induction m with
  | nil => simpa [Memory.put] using h
  | cons d m ih =>
    unfold Memory.put at h
    split at h
    · simpa using h
    · split at h
      · rcases List.mem_cons.1 h with h | h <;> simp [h]
      · rcases List.mem_cons.1 h with h | h
        · simp [h]
        · rcases ih h with h | h <;> simp [h]

/-- A write inside the buffer keeps the canonical form. -/
theorem put_wf {n : Nat} {m : Memory} (hm : m.Wf n) {a : Nat} (ha : a < n) (v : Byte) : (m.put a v).Wf n := by
  refine ⟨?_, fun c hc => ?_⟩
  · have hp := hm.1
    clear hm
    induction m with
    | nil => simp [Memory.put]
    | cons c m ih =>
      rw [List.pairwise_cons] at hp
      unfold Memory.put
      split
      · rename_i h
        refine List.pairwise_cons.2 ⟨fun d hd => ?_, List.pairwise_cons.2 hp⟩
        rcases List.mem_cons.1 hd with rfl | hd
        · exact h
        · exact Nat.lt_trans h (hp.1 d hd)
      · split
        · rename_i h
          subst h
          exact List.pairwise_cons.2 hp
        · rename_i h₁ h₂
          refine List.pairwise_cons.2 ⟨fun d hd => ?_, ih hp.2⟩
          rcases mem_put hd with rfl | hd
          · show c.1 < a
            omega
          · exact hp.1 d hd
  · rcases mem_put hc with rfl | hc
    · exact ha
    · exact hm.2 c hc

theorem putBytes_wf {n : Nat} (B : List Byte) : ∀ {m : Memory} (_ : m.Wf n) {a : Nat} (_ : a + B.length ≤ n),
    (m.putBytes a B).Wf n := by
  induction B with
  | nil => intro m hm a _; exact hm
  | cons b B ih =>
    intro m hm a ha
    rw [List.length_cons] at ha
    exact ih (put_wf hm (by omega) b) (by omega)

theorem find_of_lt {m : Memory} {a : Nat} (h : ∀ c ∈ m, a < c.1) : m.find a = none := by
  induction m with
  | nil => rfl
  | cons c m ih =>
    have hc := h c (by simp)
    simp only [Memory.find]
    rw [if_neg (by omega), ih fun d hd => h d (by simp [hd])]

/-- Equal memories are equal data: two canonical lists that hold the same bytes are the same list. -/
theorem wf_ext {n : Nat} {m₁ m₂ : Memory} (h₁ : m₁.Wf n) (h₂ : m₂.Wf n) (h : ∀ a, m₁.find a = m₂.find a) :
    m₁ = m₂ := by
  have p₁ := h₁.1
  have p₂ := h₂.1
  clear h₁ h₂
  induction m₁ generalizing m₂ with
  | nil =>
    cases m₂ with
    | nil => rfl
    | cons c m₂ => simpa [Memory.find] using h c.1
  | cons c m₁ ih =>
    cases m₂ with
    | nil => simpa [Memory.find] using h c.1
    | cons d m₂ =>
      rw [List.pairwise_cons] at p₁ p₂
      have hcd : c.1 = d.1 := by
        rcases Nat.lt_trichotomy c.1 d.1 with hlt | heq | hgt
        · have := h c.1
          rw [find_of_lt (m := d :: m₂)] at this
          · simp [Memory.find] at this
          · intro e he
            rcases List.mem_cons.1 he with rfl | he
            · exact hlt
            · exact Nat.lt_trans hlt (p₂.1 e he)
        · exact heq
        · have := h d.1
          rw [find_of_lt (m := c :: m₁)] at this
          · simp [Memory.find] at this
          · intro e he
            rcases List.mem_cons.1 he with rfl | he
            · exact hgt
            · exact Nat.lt_trans hgt (p₁.1 e he)
      have hv := h c.1
      simp only [Memory.find, hcd, if_true, Option.some.injEq] at hv
      have hc : c = d := Prod.ext hcd hv
      subst hc
      congr 1
      refine ih (fun a => ?_) p₁.2 p₂.2
      have ha := h a
      simp only [Memory.find] at ha
      by_cases hca : c.1 = a
      · subst hca
        rw [find_of_lt p₁.1, find_of_lt p₂.1]
      · rwa [if_neg hca, if_neg hca] at ha

/-- A byte read depends on the buffer and the power-on draw only. -/
theorem readByte_congr {s t : State} (hb : t.buf = s.buf) (hp : t.powerOns = s.powerOns) (a : Nat) :
    t.readByte a = s.readByte a := by
  simp [State.readByte, hb, hp]

theorem memRead_congr {s t : State} (hb : t.buf = s.buf) (hp : t.powerOns = s.powerOns) (n : Nat) :
    ∀ a, t.memRead a n = s.memRead a n := by
  induction n with
  | zero => intro a; rfl
  | succ n ih => intro a; simp [State.memRead, ih, readByte_congr hb hp]

/-- What one byte reads as after `memWrite`. -/
theorem readByte_memWrite (s : State) (a : Nat) (B : List Byte) (b : Nat) :
    (s.memWrite a B).readByte b = if h : a ≤ b ∧ b < a + B.length then B[b - a]'(by omega) else s.readByte b := by
  simp only [State.readByte, memWrite_buf, memWrite_powerOns, find_putBytes]
  split
  · rename_i h
    rw [List.getElem?_eq_getElem (by omega)]
    rfl
  · rfl

theorem readByte_memWrite_inside (s : State) (a : Nat) (B : List Byte) {k : Nat} (hk : k < B.length) :
    (s.memWrite a B).readByte (a + k) = B[k] := by
  rw [readByte_memWrite, dif_pos (by omega)]
  simp

theorem readByte_memWrite_outside (s : State) (a : Nat) (B : List Byte) {b : Nat} (h : b < a ∨ a + B.length ≤ b) :
    (s.memWrite a B).readByte b = s.readByte b := by
  rw [readByte_memWrite, dif_neg (by omega)]

@[simp] theorem memRead_length (s : State) (n : Nat) : ∀ a, (s.memRead a n).length = n := by
  induction n with
  | zero => intro a; rfl
  | succ n ih => intro a; simp [State.memRead, ih]

@[simp] theorem memRead_getElem (s : State) (n : Nat) : ∀ (a k : Nat) (h : k < (s.memRead a n).length),
    (s.memRead a n)[k] = s.readByte (a + k) := by
  induction n with
  | zero => intro a k h; simp [State.memRead] at h
  | succ n ih =>
    intro a k h
    cases k with
    | zero => simp [State.memRead]
    | succ k =>
      have e : a + 1 + k = a + (k + 1) := by omega
      simp [State.memRead, ih, e]

/-- Two regions of equal length that read equal byte by byte are equal byte strings. -/
theorem memRead_ext {s t : State} {a b n : Nat} (h : ∀ k < n, s.readByte (a + k) = t.readByte (b + k)) :
    s.memRead a n = t.memRead b n := by
  apply List.ext_getElem (by simp)
  intro k h₁ _
  simp only [memRead_getElem]
  exact h k (by simpa using h₁)

/-- Reading back the region just written. -/
theorem memRead_memWrite (s : State) (a : Nat) (B : List Byte) : (s.memWrite a B).memRead a B.length = B := by
  apply List.ext_getElem (by simp)
  intro k _ h₂
  simp only [memRead_getElem]
  exact readByte_memWrite_inside s a B h₂

end Sys2Proof.Machine
end

