-- ==== Sys2Proof/Laws/Complete.lean ====
section
/-! SUPPORT. What a completion, a host access and a step can do, said once (60_exceptions.md R402 to R404;
20_memory.md R102, R103). -/

namespace Sys2Proof.Machine

@[simp] theorem firstError_nil (s : State) : firstError s [] = .ok := rfl

@[simp] theorem firstError_cons (s : State) (c : Check) (cs : List Check) :
    firstError s (c :: cs) = if c.1 s then firstError s cs else c.2 := rfl

/-- If every check carries an error code, the command succeeds exactly when all of them pass. -/
theorem firstError_eq_ok {s : State} {cs : List Check} (h : ∀ c ∈ cs, c.2 ≠ .ok) :
    firstError s cs = .ok ↔ ∀ c ∈ cs, c.1 s = true := by
  induction cs with
  | nil => simp
  | cons c cs ih =>
    have hc := h c (by simp)
    have ih := ih fun d hd => h d (by simp [hd])
    by_cases hp : c.1 s = true
    · simp [hp, ih]
    · simp [hp, hc]

/-- A command all of whose checks pass: its effect, then ERR = 0. -/
theorem complete_ok {cs : List Check} {f : State → State} {s : State} (h : firstError s cs = .ok) :
    complete cs f s = .next ((f s).finish .ok) := by
  simp [complete, h]

/-- A command with a failing check: its code, and nothing else. -/
theorem complete_error {cs : List Check} {f : State → State} {s : State} (h : firstError s cs ≠ .ok) :
    complete cs f s = .next (s.completeError (firstError s cs)) := by
  unfold complete
  split
  · contradiction
  · rfl

/-- All that a completion can do. -/
theorem complete_next {cs : List Check} {f : State → State} {s t : State} (h : complete cs f s = .next t) :
    (firstError s cs = .ok ∧ t = (f s).finish .ok) ∨
    (firstError s cs ≠ .ok ∧ t = s.completeError (firstError s cs)) := by
  by_cases hc : firstError s cs = .ok
  · rw [complete_ok hc] at h
    exact .inl ⟨hc, (Host.Outcome.next.inj h).symm⟩
  · rw [complete_error hc] at h
    exact .inr ⟨hc, (Host.Outcome.next.inj h).symm⟩

/-- The checks of each command after the word's own, in the order of R402. -/
def checksOf : Instr → List Check
  | .qr a b c d => [chkDistinct a b c d]
  | .colrnd | .diagrnd | .dblrnd | .perm20 | .core20 => []
  | .stldCc | .ccInit => [chkKey, chkNonce 12]
  | .stldHc | .hchacha => [chkKey, chkNonce 16]
  | .ccBlock => [chkDstBlock, chkValid, chkCounter fun _ => 1]
  | .ccXor => [chkSrc, chkDst, chkValid, chkCounter fun s => ceilDiv s.len.toNat 64]
  | .pInit => [chkKey]
  | .pTag => [chkSrc, chkUnused, chkReady]
  | .aeadEnc => [chkKey, chkNonce 12] ++ aeadRegionChecks
  | .aeadDec => [chkKey, chkNonce 12, chkTagLen] ++ aeadRegionChecks ++ [chkAuth State.aeadKeys]
  | .xcInit => [chkKey, chkNonce 24]
  | .xaeadEnc => [chkKey, chkNonce 24] ++ aeadRegionChecks
  | .xaeadDec => [chkKey, chkNonce 24, chkTagLen] ++ aeadRegionChecks ++ [chkAuth State.xKeys]

/-- The effect of each command when every check passes. -/
def effectOf : Instr → State → State
  | .qr a b c d => State.mapMatrix fun X => qrx X a b c d
  | .colrnd => State.mapMatrix columnRound
  | .diagrnd => State.mapMatrix diagonalRound
  | .dblrnd => State.mapMatrix doubleRound
  | .perm20 => State.mapMatrix permute
  | .core20 => State.mapMatrix coreBlock
  | .stldCc => fun s => { s with mat := initCc s.key s.counter s.nonce12 }
  | .stldHc => fun s => { s with mat := initHc s.key s.nonce16 }
  | .ccInit => fun s => s.loadContext s.key s.nonce12
  | .ccBlock => ccBlockEffect
  | .ccXor => ccXorEffect
  | .pInit => pInitEffect
  | .pTag => pTagEffect
  | .aeadEnc => fun s => sealEffect s.aeadKeys.1 s.aeadKeys.2 s
  | .aeadDec => fun s => openEffect s.aeadKeys.1 s.aeadKeys.2 s
  | .hchacha => fun s => { s with subkey := hchacha20 s.key s.nonce16 }
  | .xcInit => fun s => s.loadContext s.xKeys.1 s.xKeys.2
  | .xaeadEnc => fun s => sealEffect s.xKeys.1 s.xKeys.2 s
  | .xaeadDec => fun s => openEffect s.xKeys.1 s.xKeys.2 s

/-- Every command is a completion: its checks and its effect. -/
theorem exec_eq_complete (i : Instr) (s : State) : exec i s = complete (checksOf i) (effectOf i) s := by
  cases i <;> rfl

/-- All that a host access inside the window can do. -/
theorem hostAccess_next {a : HostAccess} {s t : State} (h : hostAccess a s = .next t) :
    a.offset < s.windowEnd ∧
    ((a.performed = true ∧ ∃ w off, a = .read w off ∧ t = s.answer (s.portRead off)) ∨
     (a.performed = true ∧ ∃ w off v, a = .write w off v ∧ t = s.portWrite off v) ∨
     (a.performed = false ∧ (∃ w off, a = .read w off) ∧ t = { s with aerr := true }.answer 0) ∨
     (a.performed = false ∧ (∃ w off v, a = .write w off v) ∧ t = { s with aerr := true })) := by
  unfold hostAccess at h
  split at h
  · cases h
  · rename_i hw
    refine ⟨by omega, ?_⟩
    split at h
    · rename_i hp
      cases a with
      | read w off => exact .inl ⟨hp, w, off, rfl, (Host.Outcome.next.inj h).symm⟩
      | write w off v => exact .inr (.inl ⟨hp, w, off, v, rfl, (Host.Outcome.next.inj h).symm⟩)
    · rename_i hp
      have hp : a.performed = false := by simpa using hp
      cases a with
      | read w off => exact .inr (.inr (.inl ⟨hp, ⟨w, off, rfl⟩, (Host.Outcome.next.inj h).symm⟩))
      | write w off v => exact .inr (.inr (.inr ⟨hp, ⟨w, off, v, rfl⟩, (Host.Outcome.next.inj h).symm⟩))

/-- An aligned 32-bit read inside the window is performed. -/
theorem hostAccess_read {s : State} {off : Nat} (hw : off < s.windowEnd) (ha : off % 4 = 0) :
    hostAccess (.read 32 off) s = .next (s.answer (s.portRead off)) := by
  simp [hostAccess, HostAccess.performed, HostAccess.width, HostAccess.offset, ha, Nat.not_le.2 hw]

/-- An aligned 32-bit write inside the window is performed. -/
theorem hostAccess_write {s : State} {off : Nat} (v : Word) (hw : off < s.windowEnd) (ha : off % 4 = 0) :
    hostAccess (.write 32 off v) s = .next (s.portWrite off v) := by
  simp [hostAccess, HostAccess.performed, HostAccess.width, HostAccess.offset, ha, Nat.not_le.2 hw]

/-- A performed write below BUF_BASE to an idle machine goes to the register at the offset, if there is one. -/
theorem portWrite_idle {s : State} {off : Nat} (v : Word) (hb : s.busy = false) (ho : off < bufBase) :
    s.portWrite off v = match Reg.ofOffset off with | some r => s.writeReg r v | none => s :=
  (if_neg (by simp [hb])).trans (if_pos ho)

/-- All that the engine's turn can do: nothing when idle, a command or an illegal word when busy. -/
theorem engineTurn_next {s t : State} (h : engineTurn s = .next t) :
    (s.busy = false ∧ t = s) ∨
    (s.busy = true ∧ ∃ i, decode s.lastcmd = .ok i ∧ exec i s = .next t) ∨
    (s.busy = true ∧ (∃ e, decode s.lastcmd = .error e) ∧ t = s.completeError .illegalCmd) := by
  unfold engineTurn at h
  split at h
  · rename_i hb
    unfold completion at h
    split at h
    · rename_i i hi
      exact .inr (.inl ⟨hb, i, hi, h⟩)
    · rename_i e he
      exact .inr (.inr ⟨hb, ⟨e, he⟩, (Host.Outcome.next.inj h).symm⟩)
  · rename_i hb
    exact .inl ⟨by simpa using hb, (Host.Outcome.next.inj h).symm⟩

/-- All that a step can do: the engine's turn, one host access or a power-on reset. -/
theorem step_next {s t : State} (h : step s = .next t) :
    (∃ rest, EngineNext s rest ∧ engineTurn { s with agenda := rest } = .next t) ∨
    (∃ a rest, s.agenda = .host a :: rest ∧ hostAccess a { s with agenda := rest } = .next t) ∨
    (∃ rest, s.agenda = .powerOn :: rest ∧ t = State.powerOn { s with agenda := rest }) := by
  unfold step at h
  split at h
  · rename_i ha
    refine .inl ⟨[], .inr ⟨ha, rfl⟩, ?_⟩
    rw [show ({ s with agenda := [] } : State) = s by rw [← ha]]
    exact h
  · rename_i a rest ha
    exact .inr (.inl ⟨a, rest, ha, h⟩)
  · rename_i rest ha
    exact .inl ⟨rest, .inl ha, h⟩
  · rename_i rest ha
    exact .inr (.inr ⟨rest, ha, (Host.Outcome.next.inj h).symm⟩)

/-- The engine's turn, whichever way it comes. -/
theorem step_engine {s : State} {rest : List Turn} (h : EngineNext s rest) :
    step s = engineTurn { s with agenda := rest } := by
  rcases h with h | ⟨h, rfl⟩
  · simp [step, h]
  · rw [show ({ s with agenda := [] } : State) = s by rw [← h]]
    simp [step, h]

end Sys2Proof.Machine
end

