-- ==== Sys2Proof/Laws/PerInstr.lean ====
section
/-! SUPPORT. A fact about every command as syntax: its encoded word meets its row of spec/opcode_table.json. -/

namespace Sys2Proof.Laws.TableRow

/-- The row's `mask` (30_encoding.md R144): all bits of the word but the indices of QR. -/
def mask : Instr → Word
  | .qr _ _ _ _ => 0xFF0000FF
  | .colrnd | .diagrnd | .dblrnd | .perm20 | .core20 | .stldCc | .stldHc
  | .ccInit | .ccBlock | .ccXor | .pInit | .pTag | .aeadEnc | .aeadDec
  | .hchacha | .xcInit | .xaeadEnc | .xaeadDec => 0xFFFFFFFF

/-- The encoded word has the row's `match` under the row's `mask`, and `match` is the opcode with zeros above. -/
def Statement (i : Instr) : Prop := encode i &&& mask i = (0 : BitVec 24) ++ i.opcode

theorem qr (a b c d : Fin 16) : Statement (.qr a b c d) := by
  apply BitVec.eq_of_getLsbD_eq
  intro k hk
  simp only [encode, mask, Instr.opcode, BitVec.getLsbD_and, BitVec.getLsbD_append]
  interval_cases k <;> simp
theorem colrnd : Statement .colrnd := by unfold Statement; decide
theorem diagrnd : Statement .diagrnd := by unfold Statement; decide
theorem dblrnd : Statement .dblrnd := by unfold Statement; decide
theorem perm20 : Statement .perm20 := by unfold Statement; decide
theorem core20 : Statement .core20 := by unfold Statement; decide
theorem stldCc : Statement .stldCc := by unfold Statement; decide
theorem stldHc : Statement .stldHc := by unfold Statement; decide
theorem ccInit : Statement .ccInit := by unfold Statement; decide
theorem ccBlock : Statement .ccBlock := by unfold Statement; decide
theorem ccXor : Statement .ccXor := by unfold Statement; decide
theorem pInit : Statement .pInit := by unfold Statement; decide
theorem pTag : Statement .pTag := by unfold Statement; decide
theorem aeadEnc : Statement .aeadEnc := by unfold Statement; decide
theorem aeadDec : Statement .aeadDec := by unfold Statement; decide
theorem hchacha : Statement .hchacha := by unfold Statement; decide
theorem xcInit : Statement .xcInit := by unfold Statement; decide
theorem xaeadEnc : Statement .xaeadEnc := by unfold Statement; decide
theorem xaeadDec : Statement .xaeadDec := by unfold Statement; decide

end Sys2Proof.Laws.TableRow
end

