-- ==== Sys2Proof/Tests/Slice0.lean ====
section
/-! SUPPORT. The model's own tests.  First the smoke test of WellFormed; then words written out from the encoding
of 30_encoding.md; then single steps with the values of 95_test_vectors.md; then, for every statement of
Obligations.lean that has hypotheses, a witness that meets them, one for each clause. -/

namespace Sys2Proof.Tests

open Sys2Proof Sys2Proof.Machine Sys2Proof.Claims

-- One theorem at a time: the kernel evaluations below, run at once, take a stack each.
set_option Elab.async false

/-! ### Well-formedness: one ill-formed term for each check -/

theorem test_wf_refuses_a_eq_b : (Instr.qr 3 3 1 2).wellFormed = false := by decide
theorem test_wf_refuses_a_eq_c : (Instr.qr 3 1 3 2).wellFormed = false := by decide
theorem test_wf_refuses_a_eq_d : (Instr.qr 3 1 2 3).wellFormed = false := by decide
theorem test_wf_refuses_b_eq_c : (Instr.qr 1 3 3 2).wellFormed = false := by decide
theorem test_wf_refuses_b_eq_d : (Instr.qr 1 3 2 3).wellFormed = false := by decide
theorem test_wf_refuses_c_eq_d : (Instr.qr 1 2 3 3).wellFormed = false := by decide
theorem test_wf_accepts_qr : (Instr.qr 15 0 7 8).wellFormed = true := by decide
theorem test_wf_accepts_colrnd : Instr.colrnd.wellFormed = true := by decide

/-! ### Words written out from R140 to R145 (95_test_vectors.md, "Encodings and errors")

Each word is its fields from bit 31 down: the reserved byte, QD, QC, QB, QA, OP. -/

theorem test_decode_qr :
    decode (0b00000000#8 ++ 0b0011#4 ++ 0b0010#4 ++ 0b0001#4 ++ 0b0000#4 ++ 0b00010000#8) = .ok (.qr 0 1 2 3) := by decide
theorem test_decode_qr_fields :
    decode (0b00000000#8 ++ 0b1101#4 ++ 0b1000#4 ++ 0b0111#4 ++ 0b0010#4 ++ 0b00010000#8) = .ok (.qr 2 7 8 13) := by decide
theorem test_decode_permutation :
    decode 0x11 = .ok .colrnd ∧ decode 0x12 = .ok .diagrnd ∧ decode 0x13 = .ok .dblrnd ∧ decode 0x14 = .ok .perm20 ∧
    decode 0x15 = .ok .core20 ∧ decode 0x16 = .ok .stldCc ∧ decode 0x17 = .ok .stldHc := by decide
theorem test_decode_stream :
    decode 0x20 = .ok .ccInit ∧ decode 0x21 = .ok .ccBlock ∧ decode 0x22 = .ok .ccXor := by decide
theorem test_decode_poly1305 : decode 0x30 = .ok .pInit ∧ decode 0x31 = .ok .pTag := by decide
theorem test_decode_aead : decode 0x40 = .ok .aeadEnc ∧ decode 0x41 = .ok .aeadDec := by decide
theorem test_decode_hchacha : decode 0x50 = .ok .hchacha := by decide
theorem test_decode_xchacha :
    decode 0x60 = .ok .xcInit ∧ decode 0x61 = .ok .xaeadEnc ∧ decode 0x62 = .ok .xaeadDec := by decide
theorem test_decode_repeated_indices : decode 0x00210010 = .error .repeatedIndices := by decide
theorem test_decode_qr_table_word : decode 0x00000010 = .error .repeatedIndices := by decide
theorem test_decode_zero : decode 0x00000000 = .error .reservedOpcode := by decide
theorem test_decode_mid_bits : decode 0x00000111 = .error .reservedBits := by decide
theorem test_decode_top_bits : decode 0x01000011 = .error .reservedBits := by decide
theorem test_decode_last_opcode : decode 0x000000FF = .error .reservedOpcode := by decide
theorem test_decode_table_word : decodeTableWord 32 0x62 = some .xaeadDec ∧ decodeTableWord 32 0x10 = none := by decide
theorem test_encode_qr : encode (.qr 2 7 8 13) = 0x00D87210 := by decide

/-! ### Helpers -/

/-- What holds of the next state of an outcome; false where there is none. -/
def holds (o : Host.Outcome State Fault Refusal) (p : State → Bool) : Bool :=
  match o with
  | .next t => p t
  | .fault _ => false
  | .refused _ => false

/-- The next state of an outcome; `d` where there is none. -/
def nextOr (d : State) (o : Host.Outcome State Fault Refusal) : State :=
  match o with
  | .next t => t
  | .fault _ => d
  | .refused _ => d

/-- A machine with a buffer of 256 bytes, a command outstanding and nothing on the agenda. -/
def base : State := { State.powerOnWith ⟨256⟩ [] with busy := true }

/-- Bytes in the buffer from address a on, written since power-on. -/
def bytesAt (a : Nat) (B : List Byte) : Memory := Memory.putBytes [] a B

/-- The matrix of V3, from key bytes 00 to 1f, counter 1, nonce 00000009 0000004a 00000000. -/
def matrixV3 : Vector Word 16 :=
  #v[0x61707865, 0x3320646e, 0x79622d32, 0x6b206574, 0x03020100, 0x07060504, 0x0b0a0908, 0x0f0e0d0c, 0x13121110, 0x17161514, 0x1b1a1918, 0x1f1e1d1c, 0x00000001, 0x09000000, 0x4a000000, 0x00000000]

/-- The operands of V3. -/
def v3 : State :=
  { base with
    key := #v[0x03020100, 0x07060504, 0x0b0a0908, 0x0f0e0d0c, 0x13121110, 0x17161514, 0x1b1a1918, 0x1f1e1d1c]
    nonce := #v[0x09000000, 0x4a000000, 0, 0, 0, 0]
    counter := 1
    keyLen := 32
    nonceLen := 12 }

/-- The operands of V4. -/
def v4 : State := { v3 with nonce := #v[0x09000000, 0x4a000000, 0, 0x27594131, 0, 0], nonceLen := 16 }

/-- The 114-byte plaintext of V5, V9 and V10. -/
def sunscreen : List Byte :=
   [0x4c, 0x61, 0x64, 0x69, 0x65, 0x73, 0x20, 0x61, 0x6e, 0x64, 0x20, 0x47, 0x65, 0x6e, 0x74, 0x6c] ++
   [0x65, 0x6d, 0x65, 0x6e, 0x20, 0x6f, 0x66, 0x20, 0x74, 0x68, 0x65, 0x20, 0x63, 0x6c, 0x61, 0x73] ++
   [0x73, 0x20, 0x6f, 0x66, 0x20, 0x27, 0x39, 0x39, 0x3a, 0x20, 0x49, 0x66, 0x20, 0x49, 0x20, 0x63] ++
   [0x6f, 0x75, 0x6c, 0x64, 0x20, 0x6f, 0x66, 0x66, 0x65, 0x72, 0x20, 0x79, 0x6f, 0x75, 0x20, 0x6f] ++
   [0x6e, 0x6c, 0x79, 0x20, 0x6f, 0x6e, 0x65, 0x20, 0x74, 0x69, 0x70, 0x20, 0x66, 0x6f, 0x72, 0x20] ++
   [0x74, 0x68, 0x65, 0x20, 0x66, 0x75, 0x74, 0x75, 0x72, 0x65, 0x2c, 0x20, 0x73, 0x75, 0x6e, 0x73] ++
   [0x63, 0x72, 0x65, 0x65, 0x6e, 0x20, 0x77, 0x6f, 0x75, 0x6c, 0x64, 0x20, 0x62, 0x65, 0x20, 0x69] ++
   [0x74, 0x2e]

/-- The operands of V9, the associated data at 0, the message at 16, the output at 136; 256 bytes of buffer. -/
def v9 : State :=
  { base with
    key := #v[0x83828180, 0x87868584, 0x8b8a8988, 0x8f8e8d8c, 0x93929190, 0x97969594, 0x9b9a9998, 0x9f9e9d9c]
    nonce := #v[0x00000007, 0x43424140, 0x47464544, 0x00000000, 0x00000000, 0x00000000]
    keyLen := 32
    nonceLen := 12
    tagLen := 16
    aadlen := 12
    src := 16
    len := 114
    dst := 136
    buf := (bytesAt 0 ([0x50, 0x51, 0x52, 0x53, 0xc0, 0xc1, 0xc2, 0xc3, 0xc4, 0xc5, 0xc6, 0xc7])).putBytes 16 sunscreen }

/-- The 24-byte nonce of V10. -/
def nonceV10 : Vector Word 6 := #v[0x43424140, 0x47464544, 0x4b4a4948, 0x4f4e4d4c, 0x53525150, 0x57565554]

/-- The operands of V10. -/
def v10 : State := { v9 with nonce := nonceV10, nonceLen := 24 }

/-- The key of V7 as words. -/
def keyV7 : Vector Word 8 := #v[0x78bed685, 0x336d5557, 0xfe52447f, 0xa806d542, 0x8a800301, 0xfdb20dfb, 0xaff6bf4a, 0x1bf54941]

/-- V7: the message at 0 and its key; the Poly1305 context of that key is ready. -/
def v7 : State :=
  { base with
    key := keyV7
    keyLen := 32
    len := 34
    pr := #v[0x08bed685, 0x036d5554, 0x0e52447c, 0x0806d540]
    ps := #v[0x8a800301, 0xfdb20dfb, 0xaff6bf4a, 0x1bf54941]
    pstat := .ready
    buf := bytesAt 0 ([0x43, 0x72, 0x79, 0x70, 0x74, 0x6f, 0x67, 0x72, 0x61, 0x70, 0x68, 0x69, 0x63, 0x20, 0x46, 0x6f] ++
   [0x72, 0x75, 0x6d, 0x20, 0x52, 0x65, 0x73, 0x65, 0x61, 0x72, 0x63, 0x68, 0x20, 0x47, 0x72, 0x6f] ++
   [0x75, 0x70]) }

/-- AEAD_DEC of the table's one-byte row: ciphertext d3, no associated data, its tag. -/
def oneByteDec : State :=
  { v9 with
    aadlen := 0
    src := 0
    len := 1
    dst := 4
    tag := #v[0x98ae1496, 0xdb0c8994, 0xa16b75b8, 0xaac56637]
    buf := [(0, 0xd3)] }

/-! ### Single steps with the spec's values -/

/-- V1. -/
theorem test_qr_v1 :
    holds (exec (.qr 0 1 2 3) { base with mat := #v[0x11111111, 0x01020304, 0x9b8d6f43, 0x01234567, 0x0, 0x0, 0x0, 0x0, 0x0, 0x0, 0x0, 0x0, 0x0, 0x0, 0x0, 0x0] })
      (fun t => t.mat == #v[0xea2a92f4, 0xcb1cf8ce, 0x4581472e, 0x5881c4bb, 0x0, 0x0, 0x0, 0x0, 0x0, 0x0, 0x0, 0x0, 0x0, 0x0, 0x0, 0x0] && t.err == .ok) = true := by
  decide +kernel

/-- V2: the words the indices name, and no other. -/
theorem test_qr_v2 :
    holds (exec (.qr 2 7 8 13) { base with mat :=
      #v[0x879531e0, 0xc5ecf37d, 0x516461b1, 0xc9a62f8a, 0x44c20ef3, 0x3390af7f, 0xd9fc690b, 0x2a5f714c, 0x53372767, 0xb00a5631, 0x974c541a, 0x359e9963, 0x5c971061, 0x3d631689, 0x2098d9d6, 0x91dbd320] })
      (fun t => t.mat ==
      #v[0x879531e0, 0xc5ecf37d, 0xbdb886dc, 0xc9a62f8a, 0x44c20ef3, 0x3390af7f, 0xd9fc690b, 0xcfacafd2, 0xe46bea80, 0xb00a5631, 0x974c541a, 0x359e9963, 0x5c971061, 0xccc07c79, 0x2098d9d6, 0x91dbd320]) = true := by
  decide +kernel

/-- V3, COLRND. -/
theorem test_colrnd_v3 : holds (exec .colrnd { base with mat := matrixV3 }) (fun t => t.mat ==
    #v[0xabbaa25c, 0x1efa51ea, 0x7354fbdf, 0x83d2dc69, 0x3a465196, 0x1c7e64f6, 0xb12fb628, 0xf05b6976, 0x6b3ca454, 0x08eb14b1, 0xbf8a9ac9, 0xe444df3b, 0xdec62ed2, 0x8862cc77, 0x6e35b345, 0x52a647f1]) = true := by
  decide +kernel

/-- V3, DIAGRND. -/
theorem test_diagrnd_v3 : holds (exec .diagrnd { base with mat := matrixV3 }) (fun t => t.mat ==
    #v[0xc0bf2761, 0x334f55ef, 0x7268fe63, 0xf1a5ce5c, 0x7be812e6, 0x4d18599b, 0x12e46e98, 0x1bb0f6a5, 0xa3cfa5c8, 0x4f74b7cd, 0x6ed2994b, 0xc50120a4, 0x386bc55e, 0x567f1348, 0xd1ea7e97, 0xd64f17bd]) = true := by
  decide +kernel

/-- V3, DBLRND. -/
theorem test_dblrnd_v3 : holds (exec .dblrnd { base with mat := matrixV3 }) (fun t => t.mat ==
    #v[0xcd52e917, 0x85ab03b4, 0xb3457395, 0xf96de7dd, 0xc4b7cd22, 0x5c2e187a, 0xc95eb461, 0x316c801a, 0x7bf7d740, 0x7eddd644, 0xf1a1bdf5, 0x761246ca, 0x6b0d58a3, 0x6798471a, 0xd737f167, 0xf173888d]) = true := by
  decide +kernel

/-- V3, PERM20. -/
theorem test_perm20_v3 : holds (exec .perm20 { base with mat := matrixV3 }) (fun t => t.mat ==
    #v[0x837778ab, 0xe238d763, 0xa67ae21e, 0x5950bb2f, 0xc4f2d0c7, 0xfc62bb2f, 0x8fa018fc, 0x3f5ec7b7, 0x335271c2, 0xf29489f3, 0xeabda8fc, 0x82e46ebd, 0xd19c12b4, 0xb04e16de, 0x9e83d0cb, 0x4e3c50a2]) = true := by
  decide +kernel

/-- V3, CORE20. -/
theorem test_core20_v3 : holds (exec .core20 { base with mat := matrixV3 }) (fun t => t.mat ==
    #v[0xe4e7f110, 0x15593bd1, 0x1fdd0f50, 0xc47120a3, 0xc7f4d1c7, 0x0368c033, 0x9aaa2204, 0x4e6cd4c3, 0x466482d2, 0x09aa9f07, 0x05d7c214, 0xa2028bd9, 0xd19c12b5, 0xb94e16de, 0xe883d0cb, 0x4e3c50a2]) = true := by
  decide +kernel

/-- V3, STLD_CC. -/
theorem test_stldCc_v3 : holds (exec .stldCc v3) (fun t => t.mat == matrixV3) = true := by decide +kernel

/-- STLD_CC with LENCFG = 0x00001020: INVALID_NONCE_LENGTH. -/
theorem test_stldCc_nonce : holds (exec .stldCc v4) (fun t => t == failed v4 .invalidNonceLength) = true := by
  decide +kernel

/-- V4, STLD_HC. -/
theorem test_stldHc_v4 : holds (exec .stldHc v4) (fun t => t.mat ==
    #v[0x61707865, 0x3320646e, 0x79622d32, 0x6b206574, 0x03020100, 0x07060504, 0x0b0a0908, 0x0f0e0d0c, 0x13121110, 0x17161514, 0x1b1a1918, 0x1f1e1d1c, 0x09000000, 0x4a000000, 0x00000000, 0x27594131]) = true := by
  decide +kernel

/-- R220's example: COUNTER = 1 gives CCCTR = 1 and CCSTAT = 0x1. -/
theorem test_ccInit : holds (exec .ccInit v3)
    (fun t => t.ccctrWord == 1 && t.ccstatWord == 1 && t.cckey == v3.key && t.ccnonce == #v[0x09000000, 0x4a000000, 0]) =
    true := by decide +kernel

/-- V3, CC_BLOCK. -/
theorem test_ccBlock_v3 :
    holds (exec .ccBlock { v3 with cckey := v3.key, ccnonce := #v[0x09000000, 0x4a000000, 0], ccnext := 1, ccvalid := true })
      (fun t => t.ccnext == 2 && t.memRead 0 64 ==
   [0x10, 0xf1, 0xe7, 0xe4, 0xd1, 0x3b, 0x59, 0x15, 0x50, 0x0f, 0xdd, 0x1f, 0xa3, 0x20, 0x71, 0xc4] ++
   [0xc7, 0xd1, 0xf4, 0xc7, 0x33, 0xc0, 0x68, 0x03, 0x04, 0x22, 0xaa, 0x9a, 0xc3, 0xd4, 0x6c, 0x4e] ++
   [0xd2, 0x82, 0x64, 0x46, 0x07, 0x9f, 0xaa, 0x09, 0x14, 0xc2, 0xd7, 0x05, 0xd9, 0x8b, 0x02, 0xa2] ++
   [0xb5, 0x12, 0x9c, 0xd1, 0xde, 0x16, 0x4e, 0xb9, 0xcb, 0xd0, 0x83, 0xe8, 0xa2, 0x50, 0x3c, 0x4e]) = true := by
  decide +kernel

/-- The range edge: DST = BUF_SIZE − 63 is BUFFER_RANGE. -/
theorem test_ccBlock_range :
    holds (exec .ccBlock { base with dst := 193, ccvalid := true }) (fun t => t.err == .bufferRange) = true := by
  decide +kernel

/-- V5, CC_XOR in place. -/
theorem test_ccXor_v5 :
    holds (exec .ccXor { v3 with
      cckey := v3.key, ccnonce := #v[0, 0x4a000000, 0], ccnext := 1, ccvalid := true, len := 114, src := 2, dst := 2,
      buf := bytesAt 2 sunscreen })
      (fun t => t.ccctrWord == 3 && t.memRead 2 114 ==
   [0x6e, 0x2e, 0x35, 0x9a, 0x25, 0x68, 0xf9, 0x80, 0x41, 0xba, 0x07, 0x28, 0xdd, 0x0d, 0x69, 0x81] ++
   [0xe9, 0x7e, 0x7a, 0xec, 0x1d, 0x43, 0x60, 0xc2, 0x0a, 0x27, 0xaf, 0xcc, 0xfd, 0x9f, 0xae, 0x0b] ++
   [0xf9, 0x1b, 0x65, 0xc5, 0x52, 0x47, 0x33, 0xab, 0x8f, 0x59, 0x3d, 0xab, 0xcd, 0x62, 0xb3, 0x57] ++
   [0x16, 0x39, 0xd6, 0x24, 0xe6, 0x51, 0x52, 0xab, 0x8f, 0x53, 0x0c, 0x35, 0x9f, 0x08, 0x61, 0xd8] ++
   [0x07, 0xca, 0x0d, 0xbf, 0x50, 0x0d, 0x6a, 0x61, 0x56, 0xa3, 0x8e, 0x08, 0x8a, 0x22, 0xb6, 0x5e] ++
   [0x52, 0xbc, 0x51, 0x4d, 0x16, 0xcc, 0xf8, 0x06, 0x81, 0x8c, 0xe9, 0x1a, 0xb7, 0x79, 0x37, 0x36] ++
   [0x5a, 0xf9, 0x0b, 0xbf, 0x74, 0xa3, 0x5b, 0xe6, 0xb4, 0x0b, 0x8e, 0xed, 0xf2, 0x78, 0x5e, 0x42] ++
   [0x87, 0x4d]) = true := by
  decide +kernel

/-- The last counter and an exact block: CCCTR = 0, CCSTAT = 0x3. -/
theorem test_ccXor_exhausts :
    holds (exec .ccXor { base with ccnext := 0xFFFFFFFF, ccvalid := true, len := 64, dst := 64 })
      (fun t => t.err == .ok && t.ccctrWord == 0 && t.ccstatWord == 3) = true := by
  decide +kernel

/-- V7, P_INIT: the clamped r and s. -/
theorem test_pInit_v7 :
    holds (exec .pInit { base with key := keyV7, keyLen := 32, acc := 5, pstat := .used })
      (fun t => t.pr == v7.pr && t.ps == v7.ps && t.acc == 0 && t.pstatWord == 1) = true := by
  decide +kernel

/-- V7, P_TAG: the tag and the accumulator. -/
theorem test_pTag_v7 : holds (exec .pTag v7)
    (fun t => t.tag == #v[0xc11d06a8, 0xc6365130, 0xaf8b2bc2, 0xa927010c] && t.acc == 0x28d31b7caff946c77c8844335369d03a7 &&
      t.pstatWord == 2) = true := by
  decide +kernel

/-- A second P_TAG is INSTANCE_CONSUMED (R411). -/
theorem test_pTag_twice : holds (exec .pTag { v7 with pstat := .used }) (fun t => t.err == .instanceConsumed) = true := by
  decide +kernel

/-- V9: AEAD_ENC. -/
theorem test_aeadEnc_v9 : holds (exec .aeadEnc v9)
    (fun t => t.tag == #v[0x590be11a, 0x6ae2094f, 0xcb2e907e, 0x910660d0] && t.memRead 16 114 == sunscreen && t.memRead 136 114 ==
   [0xd3, 0x1a, 0x8d, 0x34, 0x64, 0x8e, 0x60, 0xdb, 0x7b, 0x86, 0xaf, 0xbc, 0x53, 0xef, 0x7e, 0xc2] ++
   [0xa4, 0xad, 0xed, 0x51, 0x29, 0x6e, 0x08, 0xfe, 0xa9, 0xe2, 0xb5, 0xa7, 0x36, 0xee, 0x62, 0xd6] ++
   [0x3d, 0xbe, 0xa4, 0x5e, 0x8c, 0xa9, 0x67, 0x12, 0x82, 0xfa, 0xfb, 0x69, 0xda, 0x92, 0x72, 0x8b] ++
   [0x1a, 0x71, 0xde, 0x0a, 0x9e, 0x06, 0x0b, 0x29, 0x05, 0xd6, 0xa5, 0xb6, 0x7e, 0xcd, 0x3b, 0x36] ++
   [0x92, 0xdd, 0xbd, 0x7f, 0x2d, 0x77, 0x8b, 0x8c, 0x98, 0x03, 0xae, 0xe3, 0x28, 0x09, 0x1b, 0x58] ++
   [0xfa, 0xb3, 0x24, 0xe4, 0xfa, 0xd6, 0x75, 0x94, 0x55, 0x85, 0x80, 0x8b, 0x48, 0x31, 0xd7, 0xbc] ++
   [0x3f, 0xf4, 0xde, 0xf0, 0x8e, 0x4b, 0x7a, 0x9d, 0xe5, 0x76, 0xd2, 0x65, 0x86, 0xce, 0xc6, 0x4b] ++
   [0x61, 0x16]) = true := by
  decide +kernel

/-- The row with both empty. -/
theorem test_aeadEnc_empty : holds (exec .aeadEnc { v9 with len := 0, aadlen := 0 })
    (fun t => serW t.tag.toList == [0xa0, 0x78, 0x4d, 0x7a, 0x47, 0x16, 0xf3, 0xfe, 0xb4, 0xf6, 0x4e, 0x7f, 0x4b, 0x39, 0xbf, 0x04]) = true := by
  decide +kernel

/-- The one-byte row decrypts to 4c. -/
theorem test_aeadDec_one_byte :
    holds (exec .aeadDec oneByteDec) (fun t => t.err == .ok && t.memRead 4 1 == [0x4c]) = true := by
  decide +kernel

/-- One bit of its tag changed: ERR 9 and nothing written. -/
theorem test_aeadDec_tampered :
    holds (exec .aeadDec { oneByteDec with tag := #v[0x98ae1497, 0xdb0c8994, 0xa16b75b8, 0xaac56637] })
      (fun t => t.err == .authenticationFailed && t.buf == oneByteDec.buf) = true := by
  decide +kernel

/-- V4, HCHACHA. -/
theorem test_hchacha_v4 : holds (exec .hchacha v4) (fun t => t.subkey ==
    #v[0x423b4182, 0xfe7bb227, 0x50420ed3, 0x737d878a, 0xd5e4f9a0, 0x53a8748a, 0x13c42ec1, 0xdcecd326]) = true := by
  decide +kernel

/-- V10, XC_INIT with COUNTER 0: the derived key and nonce. -/
theorem test_xcInit_v10 : holds (exec .xcInit v10)
    (fun t => t.cckey == #v[0xc0c08a4a, 0xba226229, 0xaa9f95fe, 0x5ba406be, 0xe4cea389, 0xe3f6fe44, 0xa55976d7, 0x32ee493f] &&
      t.ccnonce == #v[0x00000000, 0x53525150, 0x57565554] && t.ccnext == 0 && t.subkey == v10.subkey) = true := by
  decide +kernel

/-- XC_INIT with NONCE_LEN = 16: ERR 3. -/
theorem test_xcInit_nonce : holds (exec .xcInit { v10 with nonceLen := 16 }) (fun t => t.err == .invalidNonceLength) =
    true := by decide +kernel

/-- V10: XAEAD_ENC. -/
theorem test_xaeadEnc_v10 : holds (exec .xaeadEnc v10)
    (fun t => serW t.tag.toList == [0xc0, 0x87, 0x59, 0x24, 0xc1, 0xc7, 0x98, 0x79, 0x47, 0xde, 0xaf, 0xd8, 0x78, 0x0a, 0xcf, 0x49] && t.memRead 136 114 ==
   [0xbd, 0x6d, 0x17, 0x9d, 0x3e, 0x83, 0xd4, 0x3b, 0x95, 0x76, 0x57, 0x94, 0x93, 0xc0, 0xe9, 0x39] ++
   [0x57, 0x2a, 0x17, 0x00, 0x25, 0x2b, 0xfa, 0xcc, 0xbe, 0xd2, 0x90, 0x2c, 0x21, 0x39, 0x6c, 0xbb] ++
   [0x73, 0x1c, 0x7f, 0x1b, 0x0b, 0x4a, 0xa6, 0x44, 0x0b, 0xf3, 0xa8, 0x2f, 0x4e, 0xda, 0x7e, 0x39] ++
   [0xae, 0x64, 0xc6, 0x70, 0x8c, 0x54, 0xc2, 0x16, 0xcb, 0x96, 0xb7, 0x2e, 0x12, 0x13, 0xb4, 0x52] ++
   [0x2f, 0x8c, 0x9b, 0xa4, 0x0d, 0xb5, 0xd9, 0x45, 0xb1, 0x1b, 0x69, 0xb9, 0x82, 0xc1, 0xbb, 0x9e] ++
   [0x3f, 0x3f, 0xac, 0x2b, 0xc3, 0x69, 0x48, 0x8f, 0x76, 0xb2, 0x38, 0x35, 0x65, 0xd3, 0xff, 0xf9] ++
   [0x21, 0xf9, 0x66, 0x4c, 0x97, 0x63, 0x7d, 0xa9, 0x76, 0x88, 0x12, 0xf6, 0x15, 0xc6, 0x8b, 0x13] ++
   [0xb5, 0x2e]) = true := by
  decide +kernel

/-- V10: XAEAD_DEC of that ciphertext. -/
theorem test_xaeadDec_v10 : holds (exec .xaeadDec { v10 with
    tag := #v[0x245987c0, 0x7998c7c1, 0xd8afde47, 0x49cf0a78]
    buf := v10.buf.putBytes 16 (
   [0xbd, 0x6d, 0x17, 0x9d, 0x3e, 0x83, 0xd4, 0x3b, 0x95, 0x76, 0x57, 0x94, 0x93, 0xc0, 0xe9, 0x39] ++
   [0x57, 0x2a, 0x17, 0x00, 0x25, 0x2b, 0xfa, 0xcc, 0xbe, 0xd2, 0x90, 0x2c, 0x21, 0x39, 0x6c, 0xbb] ++
   [0x73, 0x1c, 0x7f, 0x1b, 0x0b, 0x4a, 0xa6, 0x44, 0x0b, 0xf3, 0xa8, 0x2f, 0x4e, 0xda, 0x7e, 0x39] ++
   [0xae, 0x64, 0xc6, 0x70, 0x8c, 0x54, 0xc2, 0x16, 0xcb, 0x96, 0xb7, 0x2e, 0x12, 0x13, 0xb4, 0x52] ++
   [0x2f, 0x8c, 0x9b, 0xa4, 0x0d, 0xb5, 0xd9, 0x45, 0xb1, 0x1b, 0x69, 0xb9, 0x82, 0xc1, 0xbb, 0x9e] ++
   [0x3f, 0x3f, 0xac, 0x2b, 0xc3, 0x69, 0x48, 0x8f, 0x76, 0xb2, 0x38, 0x35, 0x65, 0xd3, 0xff, 0xf9] ++
   [0x21, 0xf9, 0x66, 0x4c, 0x97, 0x63, 0x7d, 0xa9, 0x76, 0x88, 0x12, 0xf6, 0x15, 0xc6, 0x8b, 0x13] ++
   [0xb5, 0x2e]) })
    (fun t => t.err == .ok && t.memRead 136 114 == sunscreen) = true := by
  decide +kernel

/-- XAEAD_ENC with both empty: the table's tag, so that XAEAD_DEC with it succeeds. -/
theorem test_xaeadDec_empty : holds (exec .xaeadDec { v10 with
    len := 0, aadlen := 0, tag := #v[0x738fac1d, 0x9d1e6d14, 0x7fcb96a7, 0xdfa52172] }) (fun t => t.err == .ok) = true := by
  decide +kernel

/-! ### The host port and the step -/

/-- P5: a write in the busy window is not performed and sets AERR. -/
theorem test_busy_write : holds (hostAccess (.write 32 0x040 0xdeadbeef) v7)
    (fun t => t.key == keyV7 && t.aerr && t.busy) = true := by decide +kernel

/-- P1: the last lines: STATUS reads 0x00000102 after the illegal QR, and 0x00000100 once DONE is cleared. -/
theorem test_status_words :
    (failed base .illegalCmd).readReg .status = 0x00000102 ∧
    ((failed base .illegalCmd).writeStatus 0x2).readReg .status = 0x00000100 := by decide +kernel

/-- LENCFG as P3 writes it: key 32, nonce 12, tag 16. -/
theorem test_lencfg : holds (hostAccess (.write 32 0x014 0x00100C20) (done base))
    (fun t => t.keyLen == 32 && t.nonceLen == 12 && t.tagLen == 16 && t.readReg .lencfg == 0x00100C20) = true := by
  decide +kernel

/-- R105: byte j of the word goes to address 4k + j. -/
theorem test_buffer_word : holds (hostAccess (.write 32 0x1008 0x04030201) (done base))
    (fun t => t.buf == [(8, 0x01), (9, 0x02), (10, 0x03), (11, 0x04)] && holds (hostAccess (.read 32 0x1008) t)
      (fun u => u.rdata == 0x04030201)) = true := by decide +kernel

/-- V7's ACC0 to ACC4. -/
theorem test_acc_words :
    let s : State := { base with acc := 0x28d31b7caff946c77c8844335369d03a7 }
    [s.accWord 0, s.accWord 1, s.accWord 2, s.accWord 3, s.accWord 4] =
      [0x369d03a7, 0xc8844335, 0xff946c77, 0x8d31b7ca, 0x00000002] := by decide +kernel

/-- From reset with nothing on the agenda nothing happens (R450). -/
theorem test_reset_idle : holds (step State.reset) (fun t => t == State.reset) = true := by decide +kernel

/-- The command word placed by withFetchWord is what the next step completes. -/
theorem test_withFetchWord : holds (step (State.reset.withFetchWord 32 0x00321010))
    (fun t => t.lastcmd == 0x00321010 && t.done && t.err == .ok) = true := by decide +kernel

/-- The soft reset at the end of P5 keeps the buffer. -/
theorem test_soft_reset : holds (hostAccess (.write 32 0x004 0x3) { v7 with ie := true })
    (fun t => t == State.atReset v7.buf v7.cfg 0 0 [] && t.irq == false) = true := by decide +kernel

theorem test_reset_memory : State.reset.buf.Wf State.reset.cfg.bufSize := by decide

/-! ### Witnesses: for each statement with hypotheses, states and operands that meet them -/

/-- What `exec` gives is a next state (all its outcomes are). -/
def after (i : Instr) (s : State) : State := nextOr s (exec i s)

theorem exec_after (i : Instr) (s : State) : exec i s = .next (after i s) := by cases i <;> rfl

/-- A command outstanding, with its word. -/
def withWord (w : Word) : State := { base with lastcmd := w }

/-- IllegalWordsCompleteWithIllegalCmd: the ends of the reserved ranges, and each other clause of R405. -/
theorem witness_illegal_words :
    ∀ w ∈ ([0x00, 0x0F, 0x18, 0x1F, 0x23, 0x2F, 0x32, 0x3F, 0x42, 0x4F, 0x51, 0x5F, 0x63, 0xFF] ++
      [0x01000011, 0x80321010, 0x00000111, 0x00800011, 0x00210010, 0x00FF1210] : List Word),
      (withWord w).busy = true ∧ IllegalWord (withWord w).lastcmd := by
  simp only [List.cons_append, List.nil_append, List.forall_mem_cons, List.not_mem_nil, false_implies, implies_true]
  unfold IllegalWord ReservedOpcode index
  and_intros <;> decide +kernel

/-- The legal words next to them are not illegal words. -/
theorem witness_legal_words :
    ∀ w ∈ ([0x00321010, 0x00FEDC10, 0x11, 0x17, 0x20, 0x22, 0x30, 0x31, 0x40, 0x41, 0x50, 0x60, 0x62] : List Word),
      ¬IllegalWord w := by
  simp only [List.forall_mem_cons, List.not_mem_nil, false_implies, implies_true]
  unfold IllegalWord ReservedOpcode index
  and_intros <;> decide +kernel

/-- DecodeAfterEncode. -/
theorem witness_encode : (Instr.qr 15 14 0 1).wellFormed = true ∧ Instr.xaeadDec.wellFormed = true := by decide

/-- EncodeAfterDecode. -/
theorem witness_decode : decode 0x0010EF10 = .ok (.qr 15 14 0 1) ∧ decode 0x62 = .ok .xaeadDec := by decide

/-- StepRunsOutstandingCommand: the engine's turn with a command outstanding, from the agenda and from an empty one;
the idle engine's; a host access; a power-on. -/
theorem witness_step :
    (EngineNext { withWord 0x11 with agenda := [.engine, .powerOn] } [.powerOn] ∧ EngineNext (withWord 0x11) [] ∧
      (withWord 0x11).busy = true ∧ decode (withWord 0x11).lastcmd = .ok .colrnd ∧ Instr.colrnd.wellFormed = true) ∧
    (EngineNext (done base) [] ∧ (done base).busy = false) ∧
    { base with agenda := [.host (.read 32 0x008)] }.agenda = .host (.read 32 0x008) :: [] ∧
    { base with agenda := [.powerOn] }.agenda = .powerOn :: [] := by decide

/-- QrMixesFourWords, with the words of V1. -/
theorem witness_qr : (0 : Fin 16) ≠ 1 ∧ (0 : Fin 16) ≠ 2 ∧ (0 : Fin 16) ≠ 3 ∧ (1 : Fin 16) ≠ 2 ∧ (1 : Fin 16) ≠ 3 ∧
    (2 : Fin 16) ≠ 3 ∧ ∃ a₁ d₁ c₁ b₁ a₂ d₂ c₂ b₂ : Word,
      a₁ = v3.mat[(0 : Fin 16)] + v3.mat[(1 : Fin 16)] ∧ d₁ = (v3.mat[(3 : Fin 16)] ^^^ a₁).rotateLeft 16 ∧
      c₁ = v3.mat[(2 : Fin 16)] + d₁ ∧ b₁ = (v3.mat[(1 : Fin 16)] ^^^ c₁).rotateLeft 12 ∧
      a₂ = a₁ + b₁ ∧ d₂ = (d₁ ^^^ a₂).rotateLeft 8 ∧ c₂ = c₁ + d₂ ∧ b₂ = (b₁ ^^^ c₂).rotateLeft 7 := by
  refine ⟨by decide, by decide, by decide, by decide, by decide, by decide, ?_⟩
  exact ⟨_, _, _, _, _, _, _, _, rfl, rfl, rfl, rfl, rfl, rfl, rfl, rfl⟩

/-- QrRepeatedIndicesIllegal: each pair. -/
theorem witness_qr_repeated :
    ∀ x ∈ ([(3, 3, 1, 2), (3, 1, 3, 2), (3, 1, 2, 3), (1, 3, 3, 2), (1, 3, 2, 3), (1, 2, 3, 3)] :
        List (Fin 16 × Fin 16 × Fin 16 × Fin 16)),
      x.1 = x.2.1 ∨ x.1 = x.2.2.1 ∨ x.1 = x.2.2.2 ∨ x.2.1 = x.2.2.1 ∨ x.2.1 = x.2.2.2 ∨ x.2.2.1 = x.2.2.2 := by
  simp

/-- ColrndMixesEachColumn and DiagrndMixesEachDiagonal: the first and the last group. -/
theorem witness_lane : 0 < 4 ∧ 3 < 4 := by decide

/-- DisjointQuarterRoundsCommute: two columns. -/
theorem witness_disjoint : ([0, 4, 8, 12, 1, 5, 9, 13] : List (Fin 16)).Nodup := by decide

/-- Perm20KeepsMatricesApart. -/
theorem witness_apart : base.mat ≠ v9.mat ∨ base.mat ≠ { base with mat := matrixV3 }.mat ∧
    exec .perm20 base = .next (after .perm20 base) ∧
    exec .perm20 { base with mat := matrixV3 } = .next (after .perm20 { base with mat := matrixV3 }) :=
  .inr ⟨by decide, exec_after _ _, exec_after _ _⟩

/-- StldLoadsTheInitialMatrix, HchachaIsStldHcThenPerm20, InitLoadsTheContext, PInitLoadsThePolyContext. -/
theorem witness_lengths : (v3.keyLen = 32 ∧ v3.nonceLen = 12) ∧ (v4.keyLen = 32 ∧ v4.nonceLen = 16) ∧
    (v10.keyLen = 32 ∧ v10.nonceLen = 24) := by decide

/-- A ChaCha20 context with one block left, the output at the end of the buffer, one block to XOR. -/
def lastBlock : State := { base with ccvalid := true, ccnext := 0xFFFFFFFF, src := 192, dst := 192, len := 64 }

/-- CcBlockStoresOneBlock and CcXorStoresMessageXorKeystream, at the edges of the buffer and of the counter. -/
theorem witness_last_block :
    lastBlock.dst.toNat + 64 ≤ lastBlock.cfg.bufSize ∧ lastBlock.src.toNat + lastBlock.len.toNat ≤ lastBlock.cfg.bufSize ∧
    lastBlock.dst.toNat + lastBlock.len.toNat ≤ lastBlock.cfg.bufSize ∧ lastBlock.ccvalid = true ∧
    lastBlock.ccnext < 2 ^ 32 ∧ lastBlock.ccnext + (lastBlock.len.toNat + 63) / 64 ≤ 2 ^ 32 := by decide

/-- CcXorStoresMessageXorKeystream: nothing to XOR succeeds when the counter is exhausted (R222). -/
theorem witness_nothing_to_xor :
    let s : State := { lastBlock with ccnext := 2 ^ 32, len := 0 }
    s.src.toNat + s.len.toNat ≤ s.cfg.bufSize ∧ s.dst.toNat + s.len.toNat ≤ s.cfg.bufSize ∧ s.ccvalid = true ∧
      s.ccnext + (s.len.toNat + 63) / 64 ≤ 2 ^ 32 := by decide

/-- CounterNeverWraps: an exhausted counter, a message one byte too long, and a command that is no INIT. -/
theorem witness_exhausted :
    (let s : State := { lastBlock with ccnext := 2 ^ 32 }
     s.ccvalid = true ∧ s.dst.toNat + 64 ≤ s.cfg.bufSize ∧ 2 ^ 32 < s.ccnext + 1) ∧
    (let s : State := { lastBlock with len := 65, src := 191, dst := 0 }
     s.ccvalid = true ∧ s.src.toNat + s.len.toNat ≤ s.cfg.bufSize ∧ s.dst.toNat + s.len.toNat ≤ s.cfg.bufSize ∧
        2 ^ 32 < s.ccnext + (s.len.toNat + 63) / 64) ∧
    lastBlock.ccnext ≤ 2 ^ 32 ∧ Instr.ccBlock ≠ .ccInit ∧ Instr.ccBlock ≠ .xcInit ∧
    exec .ccBlock lastBlock = .next (after .ccBlock lastBlock) :=
  ⟨by decide, by decide, by decide, by decide, by decide, exec_after _ _⟩

/-- A stream context and a 3-byte message at 0, to be XORed in place. -/
def threeBytes : State :=
  { base with ccvalid := true, ccnext := 7, len := 3, buf := [(0, 0x61), (1, 0x62), (2, 0x63)] }

/-- CcXorTwiceGivesTheMessageBack: in place, the counter set back. -/
theorem witness_xor_twice :
    let s := threeBytes
    let t := after .ccXor s
    let u : State := { t with ccnext := 7, dst := 100 }
    s.src.toNat + s.len.toNat ≤ s.cfg.bufSize ∧ s.dst.toNat + s.len.toNat ≤ s.cfg.bufSize ∧
    s.ccvalid = true ∧ s.ccnext + (s.len.toNat + 63) / 64 ≤ 2 ^ 32 ∧ exec .ccXor s = .next t ∧
    u.cckey = s.cckey ∧ u.ccnonce = s.ccnonce ∧ u.ccnext = s.ccnext ∧ u.ccvalid = true ∧ u.len = s.len ∧
    u.src.toNat + u.len.toNat ≤ u.cfg.bufSize ∧ u.dst.toNat + u.len.toNat ≤ u.cfg.bufSize ∧
    (∀ k < s.len.toNat, u.readByte (u.src.toNat + k) = t.readByte (s.dst.toNat + k)) := by
  refine ⟨by decide, by decide, by decide, by decide, exec_after _ _, ?_⟩
  decide +kernel

/-- KeystreamContinuesAtBlockBoundaries: a cut at 64 and at 0. -/
theorem witness_cut : (List.replicate 64 (0 : Byte)).length % 64 = 0 ∧ ([] : List Byte).length % 64 = 0 := by decide

/-- ClampClearsTheNamedBits and BlockValueAppendsOneByte: 16 bytes; a block of 1 and one of 16; the ends of i. -/
theorem witness_blocks : (List.replicate 16 (0xff : Byte)).length = 16 ∧
    (1 ≤ [(0x75 : Byte)].length ∧ [(0x75 : Byte)].length ≤ 16) ∧ 0 < 16 ∧ 15 < 16 := by decide

/-- PolyAccumulatesBlockByBlock: a full block before a rest, a short last block, and the key of V7 as bytes. -/
theorem witness_poly_blocks :
    (1 ≤ (List.replicate 16 (0x41 : Byte)).length ∧ (List.replicate 16 (0x41 : Byte)).length ≤ 16 ∧
      ((List.replicate 16 (0x41 : Byte)).length = 16 ∨ [(0x42 : Byte)] = [])) ∧
    (1 ≤ [(0x75 : Byte), 0x70].length ∧ [(0x75 : Byte), 0x70].length ≤ 16 ∧
      ([(0x75 : Byte), 0x70].length = 16 ∨ ([] : List Byte) = [])) ∧
    (serW keyV7.toList).length = 32 := by decide

/-- PolyCornerCases: a key of 32 bytes, and one whose clamped r is 0. -/
theorem witness_poly :
    (List.replicate 32 (0xff : Byte)).length = 32 ∧
    (List.replicate 3 (0 : Byte) ++ [0xf0] ++ List.replicate 28 0).length = 32 ∧
    clamp (leInt ((List.replicate 3 (0 : Byte) ++ [0xf0] ++ List.replicate 28 0).take 16)) = 0 ∧
    2 ^ 130 - 6 < 2 ^ 130 ∧ 2 ^ 128 - 1 < 2 ^ 128 := by decide +kernel

/-- PTagAuthenticatesTheMessage and PInitThenPTagComputesPoly; also with an empty message at the very end. -/
theorem witness_ptag :
    (v7.keyLen = 32 ∧ v7.src.toNat + v7.len.toNat ≤ v7.cfg.bufSize ∧ v7.pstat = .ready) ∧
    (let s : State := { v7 with src := 256, len := 0 }; s.src.toNat + s.len.toNat ≤ s.cfg.bufSize) := by decide

/-- A run with two P_TAGs, and the P_INIT between them, all issued and completed. -/
def twoTags : Nat → State
  | 0 => { v7 with
      lastcmd := 0x31
      agenda := [.engine, .host (.write 32 0x00C 0x30), .engine, .host (.write 32 0x00C 0x31), .engine] }
  | k + 1 => nextOr (twoTags k) (step (twoTags k))

/-- PTagIsSingleUse: the whole run steps, its first and fifth steps complete a P_TAG, its third a P_INIT. -/
theorem witness_two_tags :
    (∀ j < 5, step (twoTags j) = .next (twoTags (j + 1))) ∧ 0 < 4 ∧
    Completes .pTag (twoTags 0) (twoTags 1) ∧ Completes .pInit (twoTags 2) (twoTags 3) ∧
    Completes .pTag (twoTags 4) (twoTags 5) := by
  have h : ∀ j < 5, step (twoTags j) = .next (twoTags (j + 1)) := by
    have hs : ∀ j < 5, holds (step (twoTags j)) (fun _ => true) = true := by decide +kernel
    intro j hj
    have := hs j hj
    rw [twoTags]
    revert this
    cases step (twoTags j) <;> simp [holds, nextOr]
  refine ⟨h, by decide, ⟨⟨_, .inl rfl⟩, ?_⟩, ⟨⟨_, .inl rfl⟩, ?_⟩, ⟨⟨_, .inl rfl⟩, ?_⟩⟩
  · exact ⟨by decide +kernel, by decide +kernel, h 0 (by decide), by decide +kernel⟩
  · exact ⟨by decide +kernel, by decide +kernel, h 2 (by decide), by decide +kernel⟩
  · exact ⟨by decide +kernel, by decide +kernel, h 4 (by decide), by decide +kernel⟩

/-- PTagIsSingleUse, the moves of the context: to NONE by a soft reset and by a power-on. -/
theorem witness_context_moves :
    let s : State := { v7 with agenda := [.host (.write 32 0x004 2)] }
    let u : State := { v7 with agenda := [.powerOn] }
    (step s = .next (nextOr s (step s)) ∧ (nextOr s (step s)).pstat = .none) ∧
    (step u = .next (nextOr u (step u)) ∧ (nextOr u (step u)).pstat = .none) := by
  refine ⟨⟨rfl, ?_⟩, rfl, ?_⟩ <;> decide +kernel

/-- EncryptionSealsTheMessage, at the edges: a region that ends at BUF_SIZE. -/
theorem witness_encrypt :
    (v9.keyLen = 32 ∧ v9.nonceLen = 12 ∧ RegionsOk { v9 with dst := 142 }) ∧
    (v10.keyLen = 32 ∧ v10.nonceLen = 24 ∧ RegionsOk { v10 with len := 0, src := 256, dst := 256 }) := by
  unfold RegionsOk
  decide

/-- The XChaCha row with both empty, with its tag. -/
def emptyXDec : State :=
  { v10 with len := 0, aadlen := 0, tag := #v[0x738fac1d, 0x9d1e6d14, 0x7fcb96a7, 0xdfa52172] }

/-- DecryptionOpensTheMessage. -/
theorem witness_decrypt :
    (oneByteDec.keyLen = 32 ∧ oneByteDec.tagLen = 16 ∧ RegionsOk oneByteDec ∧ oneByteDec.nonceLen = 12 ∧
      TagMatches (chachaKeys oneByteDec) oneByteDec) ∧
    (emptyXDec.keyLen = 32 ∧ emptyXDec.tagLen = 16 ∧ RegionsOk emptyXDec ∧ emptyXDec.nonceLen = 24 ∧
      TagMatches (xchachaKeys emptyXDec) emptyXDec) := by
  unfold RegionsOk TagMatches
  decide +kernel

/-- DecryptionFailsClosed: the last bit of the last byte changed. -/
theorem witness_tampered :
    (let s : State := { oneByteDec with tag := #v[0x98ae1496, 0xdb0c8994, 0xa16b75b8, 0xabc56637] }
     s.keyLen = 32 ∧ s.tagLen = 16 ∧ RegionsOk s ∧ s.nonceLen = 12 ∧ ¬TagMatches (chachaKeys s) s) ∧
    (let s : State := { emptyXDec with tag := #v[0x738fac1c, 0x9d1e6d14, 0x7fcb96a7, 0xdfa52172] }
     s.keyLen = 32 ∧ s.tagLen = 16 ∧ RegionsOk s ∧ s.nonceLen = 24 ∧ ¬TagMatches (xchachaKeys s) s) := by
  unfold RegionsOk TagMatches
  decide +kernel

/-- Encryption of one byte, with one byte of associated data. -/
def oneByteEnc : State := { v9 with aad := 1, aadlen := 1, src := 0, len := 1, dst := 4, buf := [(0, 0x4c), (1, 0x50)] }

/-- DecryptionOfEncryptionGivesThePlaintext: AEAD_ENC, then AEAD_DEC with SRC at the earlier DST. -/
theorem witness_round_trip :
    let s := oneByteEnc
    let t := after .aeadEnc s
    let u : State := { t with src := 4, dst := 255 }
    (Instr.aeadEnc, Instr.aeadDec, 12#8) ∈ [(Instr.aeadEnc, Instr.aeadDec, 12#8), (.xaeadEnc, .xaeadDec, 24#8)] ∧
    s.keyLen = 32 ∧ s.nonceLen = 12#8 ∧ RegionsOk s ∧ exec .aeadEnc s = .next t ∧
    u.keyLen = 32 ∧ u.nonceLen = 12#8 ∧ u.tagLen = 16 ∧ RegionsOk u ∧
    u.key = s.key ∧ u.nonce = s.nonce ∧ u.tag = t.tag ∧ u.len = s.len ∧ u.aadlen = s.aadlen ∧
    (∀ k < s.aadlen.toNat, u.readByte (u.aad.toNat + k) = s.readByte (s.aad.toNat + k)) ∧
    (∀ k < s.len.toNat, u.readByte (u.src.toNat + k) = t.readByte (s.dst.toNat + k)) := by
  unfold RegionsOk
  refine ⟨by decide, by decide, by decide, by decide, exec_after _ _, ?_⟩
  decide +kernel

/-- The same of the X pair. -/
theorem witness_round_trip_x :
    let s : State := { oneByteEnc with nonceLen := 24, nonce := nonceV10 }
    let t := after .xaeadEnc s
    let u : State := { t with src := 4, dst := 255 }
    (Instr.xaeadEnc, Instr.xaeadDec, 24#8) ∈ [(Instr.aeadEnc, Instr.aeadDec, 12#8), (.xaeadEnc, .xaeadDec, 24#8)] ∧
    s.keyLen = 32 ∧ s.nonceLen = 24#8 ∧ RegionsOk s ∧ exec .xaeadEnc s = .next t ∧
    u.keyLen = 32 ∧ u.nonceLen = 24#8 ∧ u.tagLen = 16 ∧ RegionsOk u ∧
    u.key = s.key ∧ u.nonce = s.nonce ∧ u.tag = t.tag ∧ u.len = s.len ∧ u.aadlen = s.aadlen ∧
    (∀ k < s.aadlen.toNat, u.readByte (u.aad.toNat + k) = s.readByte (s.aad.toNat + k)) ∧
    (∀ k < s.len.toNat, u.readByte (u.src.toNat + k) = t.readByte (s.dst.toNat + k)) := by
  unfold RegionsOk
  refine ⟨by decide, by decide, by decide, by decide, exec_after _ _, ?_⟩
  decide +kernel

/-- AeadCommandsUsePrivateState: another context, another accumulator, another matrix. -/
theorem witness_private :
    let s' : State := { v9 with cckey := v9.key, ccvalid := true, acc := 5, pstat := .used, mat := matrixV3 }
    Instr.aeadEnc ∈ [Instr.aeadEnc, .aeadDec, .xaeadEnc, .xaeadDec] ∧
    s' = { v9 with cckey := s'.cckey, ccnonce := s'.ccnonce, ccnext := s'.ccnext, ccvalid := s'.ccvalid, pr := s'.pr,
                   ps := s'.ps, acc := s'.acc, pstat := s'.pstat, mat := s'.mat, subkey := s'.subkey } ∧
    exec .aeadEnc v9 = .next (after .aeadEnc v9) :=
  ⟨by decide, rfl, exec_after _ _⟩

/-- NonceWordsBeyondTheLengthAreNotRead: the first and the last command of each list. -/
theorem witness_nonce_commands :
    Instr.stldCc ∈ [Instr.stldCc, .ccInit, .aeadEnc, .aeadDec] ∧ Instr.aeadDec ∈ [Instr.stldCc, .ccInit, .aeadEnc, .aeadDec] ∧
    Instr.hchacha ∈ [Instr.stldHc, .hchacha] := by decide

/-- ReportedCodeIsTheLowestThatApplies: a command and a state for each code, the code being the one reported. -/
theorem witness_codes :
    (exec (.qr 0 0 1 2) base = .next (after (.qr 0 0 1 2) base) ∧ Applies base (.qr 0 0 1 2) .illegalCmd) ∧
    Applies base .pInit .invalidKeyLength ∧ Applies v4 .stldCc .invalidNonceLength ∧
    Applies { v9 with tagLen := 0 } .aeadDec .invalidTagLength ∧
    Applies { v9 with dst := 143 } .aeadEnc .bufferRange ∧
    (Applies base .ccBlock .notInitialised ∧ Applies base .pTag .notInitialised) ∧
    Applies { v7 with pstat := .used } .pTag .instanceConsumed ∧
    (Applies { lastBlock with ccnext := 2 ^ 32 } .ccBlock .counterOverflow ∧
      Applies { lastBlock with len := 65 } .ccXor .counterOverflow) ∧
    Applies { oneByteDec with len := 0 } .aeadDec .authenticationFailed ∧
    ∀ e, ¬Applies base .colrnd e := by
  refine ⟨⟨exec_after _ _, by simp only [Applies]; decide⟩, ⟨trivial, by decide⟩, ⟨12, rfl, by decide⟩,
    ⟨.inl rfl, by decide⟩, ⟨(143, 114), by decide, by decide⟩, ⟨.inl ⟨.inl rfl, rfl⟩, .inr ⟨rfl, rfl⟩⟩, ⟨rfl, rfl⟩,
    ⟨.inl ⟨rfl, by decide⟩, .inr ⟨rfl, by decide⟩⟩, .inl ⟨rfl, ?_⟩, ?_⟩
  · unfold TagMatches
    decide +kernel
  · intro e
    cases e <;> simp [Applies, needsKey, nonceSize, regions, Instr.wellFormed]

/-- ErrorsChangeOnlyStatus: an illegal word and a legal command that fails. -/
theorem witness_errors :
    (∃ t, engineTurn (withWord 0) = .next t ∧ t.err ≠ .ok) ∧ (∃ t, engineTurn (withWord 0x31) = .next t ∧ t.err ≠ .ok) ∧
    (withWord 0).busy = true ∧ (withWord 0x31).busy = true :=
  ⟨⟨_, rfl, by decide +kernel⟩, ⟨_, rfl, by decide +kernel⟩, rfl, rfl⟩

/-- RegistersHaveTheirWritersOnly: each register that a command writes, changed by one. -/
theorem witness_writers :
    (∀ i s, exec i s = .next (after i s)) ∧ (after .pTag v7).tag ≠ v7.tag ∧ (after .hchacha v4).subkey ≠ v4.subkey ∧
    (after .stldCc v3).mat ≠ v3.mat ∧
    ((after .ccInit v3).cckey ≠ v3.cckey ∧ (after .ccInit v3).ccnonce ≠ v3.ccnonce ∧
      (after .ccInit v3).ccvalid ≠ v3.ccvalid) ∧
    (after .ccBlock lastBlock).ccnext ≠ lastBlock.ccnext ∧ (after .pInit { v3 with ps := v7.pr }).ps ≠ v7.pr ∧
    (after .pTag v7).acc ≠ v7.acc ∧ (after .pTag v7).pstat ≠ v7.pstat := by
  refine ⟨exec_after, ?_⟩
  decide +kernel

/-- StoresStayInTheirRegion: the bytes on either side of the region. -/
theorem witness_outside :
    exec .ccXor threeBytes = .next (after .ccXor threeBytes) ∧
    threeBytes.dst.toNat + storedBytes threeBytes .ccXor ≤ 3 ∧ 191 < lastBlock.dst.toNat ∧
    exec .ccBlock lastBlock = .next (after .ccBlock lastBlock) :=
  ⟨exec_after _ _, by decide, by decide, exec_after _ _⟩

/-- CompletionRaisesTheInterrupt, CmdWriteIssues, BusyWindowAccesses: busy and idle states, and offsets at the ends
of the windows. -/
theorem witness_port :
    base.busy = true ∧ (done base).busy = false ∧
    (∀ off ∈ [0x000, 0x004, 0x008, 0x00C, 0xFFC, 0x1000, 0x10FC], off % 4 = 0 ∧ off < 0x1000 + base.cfg.bufSize) ∧
    (∀ off ∈ [0x000, 0x00C, 0x010, 0xFFC, 0x1000, 0x10FC], off ≠ 0x004 ∧ off ≠ 0x008) := by decide

/-- IssuedCommandsComplete: two host turns in the busy window, then the engine's. -/
theorem witness_issued :
    let hosts : List HostAccess := [.read 32 0x008, .write 8 0x10FD 0, .write 32 0x004 1]
    let s : State := { withWord 0x11 with agenda := hosts.map Turn.host ++ .engine :: [.engine] }
    s.busy = true ∧ s.agenda = hosts.map Turn.host ++ .engine :: [.engine] ∧
      ∀ a ∈ hosts, a.offset < 0x1000 + s.cfg.bufSize ∧ ¬SoftResets a := by
  refine ⟨rfl, rfl, fun a ha => ⟨?_, ?_⟩⟩
  · revert a
    decide
  · rintro ⟨v, rfl, hv⟩
    simp at ha
    subst ha
    simp at hv

/-- RegisterWritesStoreDefinedFields: a reserved offset at either end, and one register of each class;
RegisterWritesSetTheirFields: an idle state. -/
theorem witness_register_writes :
    (∀ off ∈ [0x01C, 0xFFC], off < 0x1000 ∧ off % 4 = 0 ∧ Reg.ofOffset off = none) ∧
    (done base).busy = false ∧ (∀ r ∈ [Reg.id, .subkey 7, .pstat], r ≠ .cmd ∧ r ≠ .status ∧ r ≠ .ctrl ∧ readOnly r = true) ∧
    (∀ r ∈ [Reg.counter, .key 0, .mat 15], r ≠ .cmd ∧ r ≠ .status ∧ r ≠ .ctrl ∧ fullWidth r = true) ∧
    Reg.lencfg ≠ .cmd ∧ Reg.lencfg ≠ .status ∧ Reg.lencfg ≠ .ctrl ∧ (0xFFFFFFFD : Word).getLsbD 1 = false := by decide

/-- ReadsHaveNoSideEffect and OtherAccessesAreNotPerformed: the last offset of the window, a reserved one, and
accesses of another width or alignment. -/
theorem witness_reads :
    (0x10FF < 0x1000 + base.cfg.bufSize ∧ 0x10FF % 4 ≠ 0) ∧ (0x01C < 0x1000 ∧ Reg.ofOffset 0x01C = none) ∧
    (0x174 = Reg.pstat.offset ∧ 0x174 < 0x1000 + base.cfg.bufSize) ∧ (8 : Nat) ≠ 32 := by decide

/-- BufferWordsAreLittleEndian: the first and the last word. -/
theorem witness_buffer_words :
    (done base).busy = false ∧ 4 * 0 < (done base).cfg.bufSize ∧ 4 * 63 < (done base).cfg.bufSize := by decide

/-- OnlyAccessesOutsideTheWindowAreRefused: the first offset beyond the window. -/
theorem witness_refused :
    let s : State := { base with agenda := [.host (.read 32 0x1100)] }
    step s = .refused .outsideWindow ∧ s.agenda = .host (.read 32 0x1100) :: [] ∧ 0x1000 + s.cfg.bufSize ≤ 0x1100 :=
  ⟨rfl, rfl, by decide⟩

/-- RegisterMapIsComplete: the ends of the reserved ranges. -/
theorem witness_reserved : ∀ off ∈ [0x01C, 0x034, 0x03C, 0x078, 0x07C, 0x090, 0x09C, 0x134, 0x13C, 0x178, 0xFFC],
    off < 0x1000 ∧ off % 4 = 0 ∧ Reg.ofOffset off = none := by decide

/-- ComputedRegistersShowTheState: the greatest ACC. -/
theorem witness_acc : { base with acc := 2 ^ 130 - 6 }.acc < 2 ^ 130 - 5 := by decide

/-- PowerOnResetValues: the first power-on and a later one. -/
theorem witness_power_on :
    (∃ cfg agenda, State.reset = State.powerOnWith cfg agenda) ∧
    ∃ t, { v9 with agenda := [.powerOn] }.agenda = .powerOn :: [] ∧ step { v9 with agenda := [.powerOn] } = .next t :=
  ⟨⟨_, _, rfl⟩, _, rfl, rfl⟩

/-- SoftResetKeepsOnlyTheBuffer: SRST alone, and with every other bit. -/
theorem witness_srst : (0x2 : Word).getLsbD 1 = true ∧ (0xFFFFFFFF : Word).getLsbD 1 = true := by decide

/-- PowerOnMeetsTheInvariant: the reference BUF_SIZE, and the least and the greatest. -/
theorem witness_legal : Config.reference.Legal ∧ Config.Legal ⟨64⟩ ∧ Config.Legal ⟨2 ^ 31⟩ := by decide

/-- EveryStepKeepsTheInvariant: a state with both contexts, bytes in the buffer and a command outstanding. -/
theorem witness_invariant :
    let s : State := { v7 with lastcmd := 0x31, ccvalid := true, ccnext := 2 ^ 32 }
    Inv s ∧ ∃ t, step s = .next t :=
  ⟨{ legal := by decide, buf_wf := by decide +kernel, busy_clear := by decide, ccnext_le := by decide,
     acc_lt := by decide, pr_clamped := by decide, acc_zero := by decide, no_context := by decide,
     no_poly := by decide }, _, rfl⟩

end Sys2Proof.Tests
end

section
/-! PROOFS. The invariant of the machine: power-on reset establishes it and every step keeps it (00_scope.md R10;
10_state.md R34, R50 to R55; 20_memory.md R101).  First the facts about words and integers; then one lemma per update
of the state; then the commands, the host port and the step. -/

namespace Sys2Proof.Machine

variable {s t : State}

/-! ### The Poly1305 context: ACC stays below p, r is clamped (R54, R262, R265) -/

theorem polyP_pos : 0 < polyP := by decide

theorem polyStep_lt (r acc : Nat) (B : List Byte) : polyStep r acc B < polyP :=
  Nat.mod_lt _ polyP_pos

theorem polyBlocks_lt (r nb : Nat) : ∀ {acc : Nat} (M : List Byte), acc < polyP → polyBlocks r nb acc M < polyP := by
  induction nb with
  | zero => exact fun _ h => h
  | succ nb ih => exact fun M _ => ih (M.drop 16) (polyStep_lt r _ (M.take 16))

theorem polyAcc_lt (r : Nat) {acc : Nat} (M : List Byte) (h : acc < polyP) : polyAcc r acc M < polyP :=
  polyBlocks_lt r _ M h

theorem clampWords_clamped (k : Vector Word 8) : Clamped (clampWords k) := by
  simp [Clamped, clampWords, BitVec.and_assoc]

/-! ### Resets -/

/-- A reset around a canonical buffer establishes the invariant, whatever else it leaves (R450, R452). -/
theorem atReset_inv {buf : Memory} {cfg : Config} (hcfg : cfg.Legal) (hbuf : buf.Wf cfg.bufSize)
    (powerOns : Nat) (rdata : Word) (agenda : List Turn) : Inv (State.atReset buf cfg powerOns rdata agenda) where
  legal := hcfg
  buf_wf := hbuf
  busy_clear := nofun
  ccnext_le := Nat.zero_le _
  acc_lt := polyP_pos
  pr_clamped := by simp [Clamped, State.atReset]
  acc_zero _ := rfl
  no_context _ := ⟨rfl, rfl, rfl⟩
  no_poly _ := ⟨rfl, rfl⟩

theorem memory_nil_wf (n : Nat) : Memory.Wf n [] := ⟨.nil, nofun⟩

theorem powerOnWith_inv {cfg : Config} (hcfg : cfg.Legal) (agenda : List Turn) :
    Inv (State.powerOnWith cfg agenda) :=
  atReset_inv hcfg (memory_nil_wf _) _ _ _

theorem Inv.powerOn (h : Inv s) : Inv s.powerOn := atReset_inv h.legal (memory_nil_wf _) _ _ _

theorem Inv.softReset (h : Inv s) : Inv s.softReset := atReset_inv h.legal h.buf_wf _ _ _

/-! ### Updates of the state -/

/-- The agenda is no part of the invariant. -/
theorem Inv.withAgenda (h : Inv s) (rest : List Turn) : Inv { s with agenda := rest } := { h with }

theorem Inv.answer (h : Inv s) (v : Word) : Inv (s.answer v) := { h with }

theorem Inv.setAerr (h : Inv s) : Inv { s with aerr := true } := { h with }

/-- A completion leaves the engine idle, so nothing is asked of DONE and ERR (R403). -/
theorem Inv.finish (h : Inv s) (e : ErrCode) : Inv (s.finish e) := { h with busy_clear := nofun }

theorem Inv.completeError (h : Inv s) (e : ErrCode) : Inv (s.completeError e) := h.finish e

theorem Inv.issue (h : Inv s) (w : Word) : Inv (s.issue w) := { h with busy_clear := fun _ => ⟨rfl, rfl⟩ }

/-- A write to STATUS only clears DONE (R33). -/
theorem Inv.writeStatus (h : Inv s) (v : Word) : Inv (s.writeStatus v) :=
  { h with busy_clear := fun hb => by simp [h.busy_clear hb] }

theorem Inv.writeCtrl (h : Inv s) (v : Word) : Inv (s.writeCtrl v) := by
  unfold State.writeCtrl
  split
  · exact h.softReset
  · exact { h with }

/-- A write of bytes inside the buffer. -/
theorem Inv.memWrite (h : Inv s) {a : Nat} {B : List Byte} (hB : a + B.length ≤ s.cfg.bufSize) :
    Inv (s.memWrite a B) :=
  { h with buf_wf := putBytes_wf B h.buf_wf hB }

theorem Inv.mapMatrix (h : Inv s) (f : Vector Word 16 → Vector Word 16) : Inv (State.mapMatrix f s) := { h with }

/-- Loading the ChaCha20 context: COUNTER is a word, so CCNEXT starts below 2^32 (R220). -/
theorem Inv.loadContext (h : Inv s) (kw : Vector Word 8) (nw : Vector Word 3) : Inv (State.loadContext kw nw s) :=
  { h with ccnext_le := s.counter.isLt.le, no_context := nofun }

/-- A context that has been loaded may move its counter, up to 2^32 (R50, R223). -/
theorem Inv.setCcnext (h : Inv s) (hv : s.ccvalid = true) {n : Nat} (hn : n ≤ 2 ^ 32) : Inv { s with ccnext := n } :=
  { h with ccnext_le := hn, no_context := fun hf => absurd (hv.symm.trans hf) nofun }

/-! ### The effects of the commands -/

theorem Inv.pInitEffect (h : Inv s) : Inv (pInitEffect s) :=
  { h with
    acc_lt := polyP_pos
    pr_clamped := clampWords_clamped s.key
    acc_zero := fun _ => rfl
    no_poly := nofun }

theorem Inv.pTagEffect (h : Inv s) : Inv (pTagEffect s) :=
  { h with
    acc_lt := polyAcc_lt _ _ h.acc_lt
    acc_zero := fun hu => absurd rfl hu
    no_poly := nofun }

theorem Inv.ccBlockEffect (h : Inv s) (hdst : s.dst.toNat + 64 ≤ s.cfg.bufSize) (hv : s.ccvalid = true)
    (hn : s.ccnext + 1 ≤ 2 ^ 32) : Inv (ccBlockEffect s) :=
  (h.memWrite (by simpa using hdst)).setCcnext hv hn

theorem Inv.ccXorEffect (h : Inv s) (hdst : s.dst.toNat + s.len.toNat ≤ s.cfg.bufSize) (hv : s.ccvalid = true)
    (hn : s.ccnext + ceilDiv s.len.toNat 64 ≤ 2 ^ 32) : Inv (ccXorEffect s) :=
  (h.memWrite (by simpa using hdst)).setCcnext hv (by simpa [xorKs_next] using hn)

@[simp] theorem srcBytes_length (s : State) : s.srcBytes.length = s.len.toNat := by simp [State.srcBytes]

/-- The ciphertext is as long as the message, so it stays in (DST, LEN) (R304). -/
theorem Inv.sealEffect (h : Inv s) (kw : Vector Word 8) (nw : Vector Word 3)
    (hdst : s.dst.toNat + s.len.toNat ≤ s.cfg.bufSize) : Inv (sealEffect kw nw s) :=
  { h.memWrite (B := (sealMessage kw nw s.srcBytes s.aadBytes).1) (by simpa [sealMessage] using hdst) with }

/-- All that OPEN can give: nothing, or the message XORed with the keystream from counter 1 (R305). -/
theorem openMessage_eq_some {kw : Vector Word 8} {nw : Vector Word 3} {C A T P : List Byte}
    (h : openMessage kw nw C A T = some P) : P = (xorKs kw nw 1 C).1 := by
  unfold openMessage at h
  split at h
  · exact (Option.some.inj h).symm
  · cases h

/-- The plaintext is as long as the message, so it stays in (DST, LEN) (R305). -/
theorem Inv.openEffect (h : Inv s) (kw : Vector Word 8) (nw : Vector Word 3)
    (hdst : s.dst.toNat + s.len.toNat ≤ s.cfg.bufSize) : Inv (openEffect kw nw s) := by
  unfold Machine.openEffect
  split
  next P hP => exact h.memWrite (by simpa [openMessage_eq_some hP] using hdst)
  next => exact h

/-! ### Completion: what the checks of a command give its effect (R402, R403) -/

theorem checksOf_code_ne_ok (i : Instr) : ∀ c ∈ checksOf i, c.2 ≠ .ok := by
  cases i <;>
    simp [checksOf, aeadRegionChecks, chkDistinct, chkKey, chkNonce, chkTagLen, chkSrc, chkDst, chkDstBlock, chkAad,
      chkValid, chkCounter, chkBody, chkUnused, chkReady, chkAuth]

/-- A command that succeeds has passed each of its checks. -/
theorem check_passes {i : Instr} (hc : firstError s (checksOf i) = .ok) {c : Check} (hm : c ∈ checksOf i) :
    c.1 s = true :=
  (firstError_eq_ok (checksOf_code_ne_ok i)).1 hc c hm

/-- A command that checks the region (DST, LEN) has it inside the buffer when it succeeds (R106, R409). -/
theorem dst_fits {i : Instr} (hc : firstError s (checksOf i) = .ok) (hm : chkDst ∈ checksOf i) :
    s.dst.toNat + s.len.toNat ≤ s.cfg.bufSize :=
  of_decide_eq_true (check_passes hc hm)

theorem Inv.effectOf (h : Inv s) {i : Instr} (hc : firstError s (checksOf i) = .ok) : Inv (effectOf i s) := by
  cases i with
  | qr a b c d => exact h.mapMatrix fun X => qrx X a b c d
  | colrnd | diagrnd | dblrnd | perm20 | core20 => exact h.mapMatrix _
  | stldCc | stldHc | hchacha => exact { h with }
  | ccInit | xcInit => exact h.loadContext _ _
  | ccBlock =>
    have hdst := check_passes hc (c := chkDstBlock) (by simp [checksOf])
    have hv := check_passes hc (c := chkValid) (by simp [checksOf])
    have hn := check_passes hc (c := chkCounter fun _ => 1) (by simp [checksOf])
    exact h.ccBlockEffect (of_decide_eq_true hdst) hv (of_decide_eq_true hn)
  | ccXor =>
    have hv := check_passes hc (c := chkValid) (by simp [checksOf])
    have hn := check_passes hc (c := chkCounter fun s => ceilDiv s.len.toNat 64) (by simp [checksOf])
    exact h.ccXorEffect (dst_fits hc (by simp [checksOf])) hv (of_decide_eq_true hn)
  | pInit => exact h.pInitEffect
  | pTag => exact h.pTagEffect
  | aeadEnc | xaeadEnc => exact h.sealEffect _ _ (dst_fits hc (by simp [checksOf, aeadRegionChecks]))
  | aeadDec | xaeadDec => exact h.openEffect _ _ (dst_fits hc (by simp [checksOf, aeadRegionChecks]))

theorem Inv.exec (h : Inv s) {i : Instr} (he : exec i s = .next t) : Inv t := by
  rw [exec_eq_complete] at he
  obtain ⟨hc, rfl⟩ | ⟨-, rfl⟩ := complete_next he
  · exact (h.effectOf hc).finish _
  · exact h.completeError _

theorem Inv.engineTurn (h : Inv s) (he : engineTurn s = .next t) : Inv t := by
  obtain ⟨-, rfl⟩ | ⟨-, i, -, he⟩ | ⟨-, -, rfl⟩ := engineTurn_next he
  · exact h
  · exact h.exec he
  · exact h.completeError _

/-! ### The host port -/

theorem Inv.writeReg (h : Inv s) (r : Reg) (v : Word) : Inv (s.writeReg r v) := by
  cases r with
  | ctrl => exact h.writeCtrl v
  | status => exact h.writeStatus v
  | cmd => exact h.issue v
  | lencfg | counter | src | dst | len | aad | aadlen | key | nonce | tag | mat => exact { h with }
  | id | lastcmd | subkey | cckey | ccnonce | ccctr | ccstat | pr | ps | acc | pstat => exact h

/-- An aligned write in the window: BUF_SIZE is a multiple of 4, so a word of the buffer has all its four bytes
inside (R10, R105). -/
theorem Inv.portWrite (h : Inv s) {off : Nat} (v : Word) (hw : off < s.windowEnd) (ha : off % 4 = 0) :
    Inv (s.portWrite off v) := by
  unfold State.portWrite
  split
  next => exact h.setAerr
  next =>
    split
    next =>
      split
      next r _ => exact h.writeReg r v
      next => exact h
    next hbase =>
      obtain ⟨hmod, -, -⟩ := h.legal
      refine h.memWrite ?_
      simp only [State.windowEnd, bufBase, ser32_length] at hw hbase ⊢
      omega

theorem offset_aligned_of_performed {a : HostAccess} (hp : a.performed = true) : a.offset % 4 = 0 := by
  simp only [HostAccess.performed, Bool.and_eq_true, beq_iff_eq] at hp
  exact hp.2

theorem Inv.hostAccess (h : Inv s) {a : HostAccess} (he : hostAccess a s = .next t) : Inv t := by
  obtain ⟨hw, ⟨-, w, off, rfl, rfl⟩ | ⟨hp, w, off, v, rfl, rfl⟩ | ⟨-, -, rfl⟩ | ⟨-, -, rfl⟩⟩ := hostAccess_next he
  · exact h.answer _
  · exact h.portWrite v hw (offset_aligned_of_performed hp)
  · exact h.setAerr.answer 0
  · exact h.setAerr

/-! ### The step -/

/-- Every step keeps the invariant. -/
theorem Inv.step (h : Inv s) (hs : step s = .next t) : Inv t := by
  obtain ⟨rest, -, he⟩ | ⟨a, rest, -, he⟩ | ⟨rest, -, rfl⟩ := step_next hs
  · exact (h.withAgenda rest).engineTurn he
  · exact (h.withAgenda rest).hostAccess he
  · exact (h.withAgenda rest).powerOn

/-! ### BUF_SIZE (R10): no step changes it, in any state -/

theorem openEffect_cfg (kw : Vector Word 8) (nw : Vector Word 3) (s : State) : (openEffect kw nw s).cfg = s.cfg := by
  unfold openEffect
  split <;> simp

theorem effectOf_cfg (i : Instr) (s : State) : (effectOf i s).cfg = s.cfg := by
  cases i with
  | qr | colrnd | diagrnd | dblrnd | perm20 | core20 | stldCc | stldHc | hchacha | ccInit | xcInit =>
    simp [effectOf]
  | ccBlock => simp [effectOf, ccBlockEffect]
  | ccXor => simp [effectOf, ccXorEffect]
  | pInit => simp [effectOf, pInitEffect]
  | pTag => simp [effectOf, pTagEffect]
  | aeadEnc | xaeadEnc => simp [effectOf, sealEffect]
  | aeadDec | xaeadDec => simp [effectOf, openEffect_cfg]

theorem exec_cfg {i : Instr} (he : exec i s = .next t) : t.cfg = s.cfg := by
  rw [exec_eq_complete] at he
  obtain ⟨-, rfl⟩ | ⟨-, rfl⟩ := complete_next he
  · exact effectOf_cfg i s
  · rfl

theorem engineTurn_cfg (he : engineTurn s = .next t) : t.cfg = s.cfg := by
  obtain ⟨-, rfl⟩ | ⟨-, i, -, he⟩ | ⟨-, -, rfl⟩ := engineTurn_next he
  · rfl
  · exact exec_cfg he
  · rfl

theorem writeReg_cfg (s : State) (r : Reg) (v : Word) : (s.writeReg r v).cfg = s.cfg := by
  cases r with
  | ctrl =>
    simp only [State.writeReg, State.writeCtrl]
    split <;> rfl
  | _ => rfl

theorem portWrite_cfg (s : State) (off : Nat) (v : Word) : (s.portWrite off v).cfg = s.cfg := by
  unfold State.portWrite
  split
  next => rfl
  next =>
    split
    next =>
      split
      next r _ => exact writeReg_cfg s r v
      next => rfl
    next => rfl

theorem hostAccess_cfg {a : HostAccess} (he : hostAccess a s = .next t) : t.cfg = s.cfg := by
  obtain ⟨-, ⟨-, w, off, -, rfl⟩ | ⟨-, w, off, v, -, rfl⟩ | ⟨-, -, rfl⟩ | ⟨-, -, rfl⟩⟩ := hostAccess_next he
  · rfl
  · exact portWrite_cfg s off v
  · rfl
  · rfl

theorem step_cfg (hs : step s = .next t) : t.cfg = s.cfg := by
  obtain ⟨rest, -, he⟩ | ⟨a, rest, -, he⟩ | ⟨rest, -, rfl⟩ := step_next hs
  · exact engineTurn_cfg (s := { s with agenda := rest }) he
  · exact hostAccess_cfg (s := { s with agenda := rest }) he
  · rfl

/-! ### The obligations -/

/-- Settles O56: a reset state meets the invariant field by field. -/
theorem powerOnMeetsTheInvariant : Obligations.PowerOnMeetsTheInvariant :=
  fun _ agenda hcfg => powerOnWith_inv hcfg agenda

/-- Settles O57: the cases of a step are those of `step_next`; each shared operation keeps the invariant. -/
theorem everyStepKeepsTheInvariant : Obligations.EveryStepKeepsTheInvariant :=
  fun _ _ h hs => ⟨h.step hs, step_cfg hs⟩

end Sys2Proof.Machine
end

section
/-! PROOFS. The register map and the host port: where the registers stand, what an access to one of them does, and
what the computed registers show (10_state.md R31 to R57, R60; 20_memory.md R102, R103). -/

namespace Sys2Proof.Machine

open Sys2Proof.Claims

variable {s : State}

/-! ### The register map (R56) -/

theorem mem_regAll (r : Reg) : r ∈ Reg.all := by
  cases r with
  | key i | nonce i | tag i | subkey i | mat i | cckey i | ccnonce i | pr i | ps i | acc i =>
    revert i
    decide
  | _ => decide

/-- No two registers share an offset, so the first one found at an offset is the register that stands there. -/
theorem ofOffset_offset (r : Reg) : Reg.ofOffset r.offset = some r :=
  (by decide : ∀ r ∈ Reg.all, Reg.ofOffset r.offset = some r) r (mem_regAll r)

theorem offset_le_last (r : Reg) : r.offset ≤ 0x174 :=
  (by decide : ∀ r ∈ Reg.all, r.offset ≤ 0x174) r (mem_regAll r)

theorem offset_aligned (r : Reg) : r.offset % 4 = 0 :=
  (by decide : ∀ r ∈ Reg.all, r.offset % 4 = 0) r (mem_regAll r)

theorem offset_lt_bufBase (r : Reg) : r.offset < bufBase :=
  (offset_le_last r).trans_lt (by decide)

theorem ofOffset_eq_none {off : Nat} : Reg.ofOffset off = none ↔ ∀ r : Reg, r.offset ≠ off := by
  simp [Reg.ofOffset, mem_regAll]

/-- The reserved word offsets of R56. -/
abbrev ReservedOffset (off : Nat) : Prop :=
  off = 0x01C ∨ (0x034 ≤ off ∧ off ≤ 0x03C) ∨ (0x078 ≤ off ∧ off ≤ 0x07C) ∨ (0x090 ≤ off ∧ off ≤ 0x09C) ∨
  (0x134 ≤ off ∧ off ≤ 0x13C) ∨ (0x178 ≤ off ∧ off ≤ 0xFFC)

theorem ofOffset_eq_none_iff_reserved {off : Nat} (hlt : off < 0x1000) (ha : off % 4 = 0) :
    Reg.ofOffset off = none ↔ ReservedOffset off := by
  by_cases hlast : off < 0x178
  · obtain ⟨k, rfl⟩ : ∃ k, off = 4 * k := ⟨off / 4, by omega⟩
    exact (by decide : ∀ k < 94, Reg.ofOffset (4 * k) = none ↔ ReservedOffset (4 * k)) k (by omega)
  · have hnone : Reg.ofOffset off = none := ofOffset_eq_none.2 fun r => by
      have := offset_le_last r
      omega
    exact iff_of_true hnone (by omega)


/-! ### Accesses to a register's offset (R57, R60) -/

theorem bufBase_le_windowEnd (s : State) : bufBase ≤ s.windowEnd := Nat.le_add_right _ _

theorem offset_lt_windowEnd (r : Reg) (s : State) : r.offset < s.windowEnd :=
  (offset_lt_bufBase r).trans_le (bufBase_le_windowEnd s)

/-- Below BUF_BASE an idle read returns the register's word, and a read the busy window answers does so too. -/
theorem portRead_offset {r : Reg} (h : s.busy = false ∨ readableWhileBusy r.offset = true) :
    s.portRead r.offset = s.readReg r := by
  have hperformed : ¬(s.busy && !readableWhileBusy r.offset) = true := by
    rcases h with h | h <;> simp [h]
  rw [State.portRead, if_neg hperformed, if_pos (offset_lt_bufBase r), ofOffset_offset]

theorem portRead_reserved {off : Nat} (hlt : off < bufBase) (hnone : Reg.ofOffset off = none) :
    s.portRead off = 0 := by
  simp [State.portRead, hlt, hnone]

theorem portRead_busy {off : Nat} (hb : s.busy = true) (hoff : readableWhileBusy off = false) :
    s.portRead off = 0 :=
  if_pos (by simp [hb, hoff])

theorem portWrite_offset {r : Reg} (v : Word) (h : s.busy = false ∨ writableWhileBusy r.offset = true) :
    s.portWrite r.offset v = s.writeReg r v := by
  have hperformed : ¬(s.busy && !writableWhileBusy r.offset) = true := by
    rcases h with h | h <;> simp [h]
  rw [State.portWrite, if_neg hperformed, if_pos (offset_lt_bufBase r), ofOffset_offset]

theorem portWrite_busy {off : Nat} (v : Word) (hb : s.busy = true) (hoff : writableWhileBusy off = false) :
    s.portWrite off v = { s with aerr := true } :=
  if_pos (by simp [hb, hoff])

theorem hostAccess_read_offset {r : Reg} (h : s.busy = false ∨ readableWhileBusy r.offset = true) :
    hostAccess (.read 32 r.offset) s = .next { s with rdata := s.readReg r } := by
  rw [hostAccess_read (offset_lt_windowEnd r s) (offset_aligned r), portRead_offset h]
  rfl

theorem hostAccess_write_offset {r : Reg} (v : Word) (h : s.busy = false ∨ writableWhileBusy r.offset = true) :
    hostAccess (.write 32 r.offset v) s = .next (s.writeReg r v) := by
  rw [hostAccess_write v (offset_lt_windowEnd r s) (offset_aligned r), portWrite_offset v h]

theorem hostAccess_write_busy {off : Nat} (v : Word) (hw : off < s.windowEnd) (ha : off % 4 = 0)
    (hb : s.busy = true) (hoff : writableWhileBusy off = false) :
    hostAccess (.write 32 off v) s = .next { s with aerr := true } := by
  rw [hostAccess_write v hw ha, portWrite_busy v hb hoff]

/-- A read of another width or alignment returns 0 and sets AERR (R103). -/
theorem hostAccess_read_not_performed {width off : Nat} (hw : off < s.windowEnd)
    (hp : (HostAccess.read width off).performed = false) :
    hostAccess (.read width off) s = .next ({ s with aerr := true }.answer 0) := by
  simp [hostAccess, HostAccess.offset, hp, Nat.not_le.2 hw]

/-! ### What a register write changes -/

/-- Without SRST a write to CTRL stores IE (R32). -/
theorem writeCtrl_of_not_srst {v : Word} (h : v.getLsbD 1 = false) : s.writeCtrl v = { s with ie := v.getLsbD 0 } :=
  if_neg (ne_true_of_eq_false h)

/-- A register write changes no buffer byte, a soft reset included (R452). -/
theorem readByte_writeReg (s : State) (r : Reg) (v : Word) (a : Nat) : (s.writeReg r v).readByte a = s.readByte a := by
  cases r with
  | ctrl =>
    simp only [State.writeReg, State.writeCtrl]
    split <;> rfl
  | _ => rfl

theorem writeReg_readOnly {r : Reg} (v : Word) (h : readOnly r = true) : s.writeReg r v = s := by
  cases r with
  | id | lastcmd | subkey | cckey | ccnonce | ccctr | ccstat | pr | ps | acc | pstat => rfl
  | ctrl | status | cmd | lencfg | counter | src | dst | len | aad | aadlen | key | nonce | tag | mat => cases h

theorem readReg_writeReg_fullWidth {r : Reg} (v : Word) (h : fullWidth r = true) : (s.writeReg r v).readReg r = v := by
  cases r with
  | counter | src | dst | len | aad | aadlen => rfl
  | key | nonce | tag | mat => exact Vector.getElem_set_self _
  | id | ctrl | status | cmd | lastcmd | lencfg | subkey | cckey | ccnonce | ccctr | ccstat | pr | ps | acc | pstat =>
    cases h

theorem getElem_set_of_ne {α : Type} {n : Nat} (x : Vector α n) (v : α) {i j : Fin n} (h : j ≠ i) :
    (x.set i v)[j] = x[j] :=
  Vector.getElem_set_ne i.isLt j.isLt fun hij => h (Fin.ext hij.symm)

/-- Only CMD, STATUS and a soft reset reach BUSY and AERR (R33, R34). -/
theorem writeReg_aerr_busy {r : Reg} (v : Word) (hcmd : r ≠ .cmd) (hstatus : r ≠ .status)
    (hsrst : r = .ctrl → v.getLsbD 1 = false) :
    (s.writeReg r v).aerr = s.aerr ∧ (s.writeReg r v).busy = s.busy := by
  cases r with
  | cmd => exact absurd rfl hcmd
  | status => exact absurd rfl hstatus
  | ctrl => rw [State.writeReg, writeCtrl_of_not_srst (hsrst rfl)]; exact ⟨rfl, rfl⟩
  | _ => exact ⟨rfl, rfl⟩

/-- A write to a register other than CMD and STATUS, and no soft reset, leaves what every other register reads as. -/
theorem readReg_writeReg_ne {r r' : Reg} (v : Word) (hcmd : r ≠ .cmd) (hstatus : r ≠ .status)
    (hsrst : r = .ctrl → v.getLsbD 1 = false) (hne : r' ≠ r) : (s.writeReg r v).readReg r' = s.readReg r' := by
  cases r with
  | cmd => exact absurd rfl hcmd
  | status => exact absurd rfl hstatus
  | id | lastcmd | subkey | cckey | ccnonce | ccctr | ccstat | pr | ps | acc | pstat => rfl
  | ctrl =>
    rw [State.writeReg, writeCtrl_of_not_srst (hsrst rfl)]
    cases r' <;> try rfl
    exact absurd rfl hne
  | lencfg | counter | src | dst | len | aad | aadlen =>
    cases r' <;> try rfl
    exact absurd rfl hne
  | key i | nonce i | tag i | mat i =>
    cases r' <;> try rfl
    exact getElem_set_of_ne _ v fun hij => hne (hij ▸ rfl)

/-! ### What the computed registers show (R32, R33, R36, R50, R51, R54, R55) -/

/-- Bit fields side by side are a sum. -/
theorem toNat_append_eq_add {m n : Nat} (x : BitVec m) (y : BitVec n) :
    (x ++ y).toNat = 2 ^ n * x.toNat + y.toNat := by
  rw [BitVec.toNat_append, ← Nat.shiftLeft_add_eq_or_of_lt y.isLt, Nat.shiftLeft_eq, Nat.mul_comm]

@[simp] theorem flagBit_toNat (b : Bool) : (flagBit b).toNat = b.toNat := BitVec.toNat_ofBool b

theorem ctrlWord_toNat (s : State) : s.ctrlWord.toNat = s.ie.toNat := by
  simp only [State.ctrlWord, toNat_append_eq_add, flagBit_toNat, BitVec.ofNat_eq_ofNat, BitVec.toNat_ofNat]
  omega

theorem statusWord_toNat (s : State) : s.statusWord.toNat =
    s.busy.toNat + 2 * s.done.toNat + 4 * s.aerr.toNat + 2 ^ 8 * s.err.code.toNat := by
  simp only [State.statusWord, toNat_append_eq_add, flagBit_toNat, BitVec.ofNat_eq_ofNat, BitVec.toNat_ofNat]
  omega

theorem lencfgWord_toNat (s : State) :
    s.lencfgWord.toNat = s.keyLen.toNat + 2 ^ 8 * s.nonceLen.toNat + 2 ^ 16 * s.tagLen.toNat := by
  simp only [State.lencfgWord, toNat_append_eq_add, BitVec.ofNat_eq_ofNat, BitVec.toNat_ofNat]
  omega

/-- A write to LENCFG stores the three lengths; the bits above read 0 (R36). -/
theorem lencfgWord_writeLencfg (s : State) (v : Word) : (s.writeLencfg v).lencfgWord = v &&& 0x00ffffff := by
  apply BitVec.eq_of_toNat_eq
  have hmask : (v &&& 0x00ffffff).toNat = v.toNat % 2 ^ 24 := Nat.and_two_pow_sub_one_eq_mod v.toNat 24
  simp only [lencfgWord_toNat, writeLencfg_keyLen, writeLencfg_nonceLen, writeLencfg_tagLen, hmask,
    BitVec.extractLsb'_toNat, Nat.shiftRight_eq_div_pow]
  omega

/-- A write to CTRL stores IE; the other bits read 0 (R32). -/
theorem ctrlWord_setIe (s : State) (v : Word) : ({ s with ie := v.getLsbD 0 } : State).ctrlWord = v &&& 1 := by
  apply BitVec.eq_of_toNat_eq
  have hmask : (v &&& 1).toNat = v.toNat % 2 := Nat.and_two_pow_sub_one_eq_mod v.toNat 1
  rw [ctrlWord_toNat, hmask, BitVec.getLsbD, Nat.toNat_testBit]
  simp

theorem ccstatWord_toNat (s : State) :
    s.ccstatWord.toNat = s.ccvalid.toNat + (if s.ccnext = 2 ^ 32 then 2 else 0) := by
  have hexh : s.exhausted.toNat = if s.ccnext = 2 ^ 32 then 1 else 0 := by
    simp [State.exhausted, Bool.toNat, Bool.cond_eq_ite]
  simp only [State.ccstatWord, toNat_append_eq_add, flagBit_toNat, BitVec.ofNat_eq_ofNat, BitVec.toNat_ofNat, hexh]
  split <;> omega

theorem pstatWord_toNat (s : State) :
    s.pstatWord.toNat = (if s.pstat = .ready then 1 else if s.pstat = .used then 2 else 0) := by
  simp only [State.pstatWord, toNat_append_eq_add, flagBit_toNat, State.ready, State.used]
  cases s.pstat <;> rfl

theorem accWord_toNat (s : State) (i : Fin 5) : (s.accWord i).toNat = s.acc / 2 ^ (32 * i.val) % 2 ^ 32 :=
  BitVec.toNat_ofNat _ _

/-- ACC is below 2^130, so its five words hold all of it and the last one only its top two bits (R54). -/
theorem accWords_of_lt (h : s.acc < 2 ^ 130 - 5) :
    wordsInt [s.accWord 0, s.accWord 1, s.accWord 2, s.accWord 3, s.accWord 4] = s.acc ∧ (s.accWord 4).toNat < 4 := by
  simp only [wordsInt, accWord_toNat, Fin.coe_ofNat_eq_mod, Nat.reduceMod, Nat.reduceMul, Nat.reducePow] at h ⊢
  omega

/-! ### The obligations -/

/-- Settles O43: CMD stands at a register's offset, and the busy window neither reads nor writes it. -/
theorem cmdWriteIssues : Obligations.CmdWriteIssues := by
  intro s w
  refine ⟨fun hb => hostAccess_write_offset (r := .cmd) w (.inl hb), fun hb => ?_, ?_⟩
  · exact hostAccess_write_busy w (offset_lt_windowEnd .cmd s) rfl hb rfl
  · have hread : s.portRead 0x00C = 0 := by
      cases hb : s.busy
      · exact portRead_offset (r := .cmd) (.inl hb)
      · exact portRead_busy hb rfl
    rw [hostAccess_read (off := 0x00C) (offset_lt_windowEnd .cmd s) rfl, hread]
    rfl

/-- Settles O47: both registers are written in the busy window too. -/
theorem statusBitsAreWriteOneToClear : Obligations.StatusBitsAreWriteOneToClear := by
  intro s v
  refine ⟨hostAccess_write_offset (r := .status) v (.inr rfl), fun hsrst => ?_⟩
  exact ⟨_, hostAccess_write_offset (r := .ctrl) v (.inr rfl), writeCtrl_of_not_srst hsrst,
    congrArg State.irq (writeCtrl_of_not_srst hsrst)⟩

/-- Settles O52. -/
theorem registerMapIsComplete : Obligations.RegisterMapIsComplete :=
  ⟨ofOffset_offset, fun _ hlt ha => ofOffset_eq_none_iff_reserved hlt ha⟩

/-- Settles O59: the stored registers read as their fields by definition, the computed ones by their words' values. -/
theorem registersReadAsTheirFields : Obligations.RegistersReadAsTheirFields := by
  intro s
  refine ⟨?_, fun _ => ⟨rfl, rfl⟩, fun _ => ⟨rfl, rfl⟩, fun _ => ⟨rfl, rfl⟩, fun _ => ⟨rfl, rfl⟩, fun _ => ⟨rfl, rfl⟩,
    fun _ => ⟨rfl, rfl⟩, fun _ => ⟨rfl, rfl⟩, fun _ => ⟨rfl, rfl⟩, fun _ => ⟨rfl, rfl⟩,
    fun i => ⟨rfl, accWord_toNat s i⟩, ⟨rfl, lencfgWord_toNat s⟩, ⟨rfl, ctrlWord_toNat s⟩, rfl, rfl, rfl, rfl, rfl⟩
  simp [Reg.offset, State.readReg, idWord]

/-- Settles O44: ID, CTRL and STATUS are registers the busy window reads, every other offset is not performed. -/
theorem busyWindowAccesses : Obligations.BusyWindowAccesses := by
  intro s off hb ha hw
  refine ⟨?_, fun v hctrl hstatus => ?_⟩
  · split_ifs with hid hctrl hstatus
    · exact hid ▸ hostAccess_read_offset (r := .id) (.inr rfl)
    · exact hctrl ▸ hostAccess_read_offset (r := .ctrl) (.inr rfl)
    · exact hstatus ▸ hostAccess_read_offset (r := .status) (.inr rfl)
    · rw [hostAccess_read hw ha, portRead_busy hb (by simp [readableWhileBusy, Reg.offset, hid, hctrl, hstatus])]
      rfl
  · exact hostAccess_write_busy v hw ha hb (by simp [writableWhileBusy, Reg.offset, hctrl, hstatus])

/-- Settles O46: a register write is the write to its field alone; at a reserved offset there is no register. -/
theorem registerWritesStoreDefinedFields : Obligations.RegisterWritesStoreDefinedFields := by
  refine ⟨fun _ => rfl, fun s off v hb hlt ha hnone => ?_, fun s r v hb hcmd hstatus hsrst => ?_⟩
  · rw [hostAccess_write v (hlt.trans_le (bufBase_le_windowEnd s)) ha, portWrite_idle v hb hlt, hnone]
  · obtain ⟨haerr, hbusy⟩ := writeReg_aerr_busy (s := s) v hcmd hstatus hsrst
    refine ⟨s.writeReg r v, hostAccess_write_offset v (.inl hb), writeReg_readOnly v, readReg_writeReg_fullWidth v,
      ?_, ?_, fun r' => readReg_writeReg_ne v hcmd hstatus hsrst, haerr, hbusy.trans hb, readByte_writeReg s r v⟩
    · rintro rfl
      exact lencfgWord_writeLencfg s v
    · rintro rfl
      rw [State.writeReg, writeCtrl_of_not_srst (hsrst rfl)]
      exact ctrlWord_setIe s v

/-- Settles O48: a read is answered on the port, or not performed with AERR set. -/
theorem readsHaveNoSideEffect : Obligations.ReadsHaveNoSideEffect := by
  intro s width off hw
  by_cases hp : width = 32 ∧ off % 4 = 0
  · obtain ⟨rfl, ha⟩ := hp
    refine ⟨_, hostAccess_read hw ha, rfl, fun _ _ => rfl, fun _ hb r hr => ?_, fun _ => portRead_reserved⟩
    subst hr
    exact portRead_offset (.inl hb)
  · have hn : (HostAccess.read width off).performed = false := by
      simpa [HostAccess.performed, HostAccess.width, HostAccess.offset] using hp
    refine ⟨_, hostAccess_read_not_performed hw hn, rfl, fun h ha => absurd ⟨h, ha⟩ hp, fun h _ r hr => ?_,
      fun _ _ _ => rfl⟩
    exact absurd ⟨h, hr ▸ offset_aligned r⟩ hp

/-- Settles O53. -/
theorem computedRegistersShowTheState : Obligations.ComputedRegistersShowTheState :=
  fun s => ⟨statusWord_toNat s, BitVec.toNat_ofNat _ _, ccstatWord_toNat s, accWords_of_lt, pstatWord_toNat s⟩

/-- Settles O60: each offset is a register's, and the write to that register is the update of its field. -/
theorem registerWritesSetTheirFields : Obligations.RegisterWritesSetTheirFields := by
  intro s v hb
  have hwrite (r : Reg) := hostAccess_write_offset (s := s) (r := r) v (.inl hb)
  exact ⟨hwrite .lencfg, hwrite .counter, hwrite .src, hwrite .dst, hwrite .len, hwrite .aad, hwrite .aadlen,
    fun i => hwrite (.key i), fun i => hwrite (.nonce i), fun i => hwrite (.tag i), fun i => hwrite (.mat i)⟩

end Sys2Proof.Machine
end

section
/-! PROOFS. What a command reads and what it writes, and the busy window: the writers of every register and flag
(10_state.md R36 to R55, R62), the operands a command does not read (R44, R219, R342), and an issued command whose
completion the host does not disturb (20_memory.md R112; 10_state.md R60; 70_reset_and_hazards.md R466). -/

namespace Sys2Proof.Machine

open Sys2Proof.Claims

variable {s t u : State}

/-! ### The outcome of a command -/

/-- Every command ends, and DONE is then 1 (R400, R403). -/
theorem exec_next_done (i : Instr) (s : State) : ∃ t, exec i s = .next t ∧ t.busy = false ∧ t.done = true := by
  rw [exec_eq_complete]
  by_cases hc : firstError s (checksOf i) = .ok
  · exact ⟨_, complete_ok hc, rfl, rfl⟩
  · exact ⟨_, complete_error hc, rfl, rfl⟩

/-- A decryption writes the buffer and nothing else (R309). -/
theorem openEffect_eq (kw : Vector Word 8) (nw : Vector Word 3) (s : State) :
    ∃ m : Memory, openEffect kw nw s = { s with buf := m } := by
  rw [openEffect]
  cases openResult kw nw s with
  | none => exact ⟨s.buf, rfl⟩
  | some P => exact ⟨_, rfl⟩

/-- Settles O40: an error writes no register; the effect of each command is an update of the fields its rule names. -/
theorem registersHaveTheirWritersOnly : Obligations.RegistersHaveTheirWritersOnly := by
  intro i s t he
  rw [exec_eq_complete] at he
  obtain ⟨-, rfl⟩ | ⟨-, rfl⟩ := complete_next he
  · cases i with
    | aeadDec =>
      obtain ⟨m, hm⟩ := openEffect_eq s.aeadKeys.1 s.aeadKeys.2 s
      simp [effectOf, hm]
    | xaeadDec =>
      obtain ⟨m, hm⟩ := openEffect_eq s.xKeys.1 s.xKeys.2 s
      simp [effectOf, hm]
    | qr | colrnd | diagrnd | dblrnd | perm20 | core20 | stldCc | stldHc =>
      simp [effectOf, writesMatrix]
    | ccInit | xcInit | hchacha => simp [effectOf]
    | ccBlock | ccXor => simp [effectOf, ccBlockEffect, ccXorEffect]
    | pInit | pTag => simp [effectOf, pInitEffect, pTagEffect]
    | aeadEnc | xaeadEnc => simp [effectOf, sealEffect]
  · simp

/-! ### What a command does not read -/

/-- `s` with the fields of `u` that no command reads (CTRL.IE, DONE, AERR, the port's read data, the agenda) and the
operands that only some commands read (COUNTER, NONCE). -/
def State.withUnread (s u : State) : State :=
  { s with ie := u.ie, done := u.done, aerr := u.aerr, rdata := u.rdata, agenda := u.agenda,
           counter := u.counter, nonce := u.nonce }

/-- `u` has the COUNTER and the nonce words of `s` that the command reads: the ones its nonce length covers (R44). -/
structure SameOperands (i : Instr) (s u : State) : Prop where
  counter : i = .stldCc ∨ i = .ccInit ∨ i = .xcInit → u.counter = s.counter
  nonce : ∀ n, nonceSize i = some n → ∀ k : Fin 6, 4 * k.val < n → u.nonce[k] = s.nonce[k]

theorem nonce12_withUnread (h : ∀ k : Fin 6, 4 * k.val < 12 → u.nonce[k] = s.nonce[k]) :
    (s.withUnread u).nonce12 = s.nonce12 := by
  simpa [State.nonce12, State.withUnread] using ⟨h 0 (by decide), h 1 (by decide), h 2 (by decide)⟩

theorem nonce16_withUnread (h : ∀ k : Fin 6, 4 * k.val < 16 → u.nonce[k] = s.nonce[k]) :
    (s.withUnread u).nonce16 = s.nonce16 := by
  simpa [State.nonce16, State.withUnread] using
    ⟨h 0 (by decide), h 1 (by decide), h 2 (by decide), h 3 (by decide)⟩

theorem nonce_withUnread (h : ∀ k : Fin 6, 4 * k.val < 24 → u.nonce[k] = s.nonce[k]) :
    (s.withUnread u).nonce = s.nonce :=
  Vector.ext fun k hk => h ⟨k, hk⟩ (by show 4 * k < 24; omega)

theorem memRead_withUnread (s u : State) (a n : Nat) : (s.withUnread u).memRead a n = s.memRead a n :=
  memRead_congr (s := s) (t := s.withUnread u) rfl rfl n a

theorem openResult_withUnread (kw : Vector Word 8) (nw : Vector Word 3) (s u : State) :
    openResult kw nw (s.withUnread u) = openResult kw nw s := by
  simp only [openResult, State.srcBytes, State.aadBytes, memRead_withUnread]
  rfl

theorem sealEffect_withUnread (kw : Vector Word 8) (nw : Vector Word 3) (s u : State) :
    sealEffect kw nw (s.withUnread u) = (sealEffect kw nw s).withUnread u := by
  simp only [sealEffect, State.srcBytes, State.aadBytes, memRead_withUnread]
  rfl

theorem openEffect_withUnread (kw : Vector Word 8) (nw : Vector Word 3) (s u : State) :
    openEffect kw nw (s.withUnread u) = (openEffect kw nw s).withUnread u := by
  rw [openEffect, openEffect, openResult_withUnread]
  cases openResult kw nw s <;> rfl

theorem aeadKeys_withUnread (h : ∀ k : Fin 6, 4 * k.val < 12 → u.nonce[k] = s.nonce[k]) :
    (s.withUnread u).aeadKeys = s.aeadKeys :=
  congrArg (s.key, ·) (nonce12_withUnread h)

theorem xKeys_withUnread (h : ∀ k : Fin 6, 4 * k.val < 24 → u.nonce[k] = s.nonce[k]) :
    (s.withUnread u).xKeys = s.xKeys :=
  congrArg (xDerive s.key) (nonce_withUnread h)

theorem chkAuth_withUnread {keys : State → Vector Word 8 × Vector Word 3} (h : keys (s.withUnread u) = keys s) :
    (chkAuth keys).1 (s.withUnread u) = (chkAuth keys).1 s := by
  simp only [chkAuth, h, openResult_withUnread]

theorem effectOf_withUnread {i : Instr} (h : SameOperands i s u) :
    effectOf i (s.withUnread u) = (effectOf i s).withUnread u := by
  cases i with
  | qr | colrnd | diagrnd | dblrnd | perm20 | core20 | pInit => rfl
  | ccBlock =>
    have hk : (s.withUnread u).cckey = s.cckey := rfl
    have hn : (s.withUnread u).ccnonce = s.ccnonce := rfl
    have hc : (s.withUnread u).ccnext = s.ccnext := rfl
    simp only [effectOf, ccBlockEffect, hk, hn, hc]
    generalize keystreamBlock s.cckey (BitVec.ofNat 32 s.ccnext) s.ccnonce = B
    rfl
  | stldCc =>
    have hn := nonce12_withUnread (h.nonce 12 rfl)
    have hc : (s.withUnread u).counter = s.counter := h.counter (by simp)
    simp only [effectOf, ← hn, ← hc]
    rfl
  | stldHc | hchacha =>
    have hn := nonce16_withUnread (h.nonce 16 rfl)
    simp only [effectOf, hn]
    rfl
  | ccInit =>
    have hn := nonce12_withUnread (h.nonce 12 rfl)
    have hc : (s.withUnread u).counter = s.counter := h.counter (by simp)
    simp only [effectOf, State.loadContext, ← hn, ← hc]
    rfl
  | xcInit =>
    have hk := xKeys_withUnread (h.nonce 24 rfl)
    have hc : (s.withUnread u).counter = s.counter := h.counter (by simp)
    simp only [effectOf, State.loadContext, ← hk, ← hc]
    rfl
  | ccXor =>
    simp only [effectOf, ccXorEffect, memRead_withUnread]
    rfl
  | pTag =>
    simp only [effectOf, pTagEffect, memRead_withUnread]
    rfl
  | aeadEnc | aeadDec =>
    simp only [effectOf, aeadKeys_withUnread (h.nonce 12 rfl), sealEffect_withUnread, openEffect_withUnread]
  | xaeadEnc | xaeadDec =>
    simp only [effectOf, xKeys_withUnread (h.nonce 24 rfl), sealEffect_withUnread, openEffect_withUnread]

/-- The checks of a command read nothing of these fields; only the tag comparison reads the nonce. -/
theorem firstError_withUnread {i : Instr} (h : SameOperands i s u) :
    firstError (s.withUnread u) (checksOf i) = firstError s (checksOf i) := by
  cases i with
  | aeadDec =>
    simp only [checksOf, aeadRegionChecks, List.cons_append, List.nil_append, firstError_cons,
      chkAuth_withUnread (aeadKeys_withUnread (h.nonce 12 rfl))]
    rfl
  | xaeadDec =>
    simp only [checksOf, aeadRegionChecks, List.cons_append, List.nil_append, firstError_cons,
      chkAuth_withUnread (xKeys_withUnread (h.nonce 24 rfl))]
    rfl
  | _ => rfl

/-- A command completes alike in two states that differ only in what it does not read; of these fields it writes only
DONE. -/
theorem exec_withUnread {i : Instr} (h : SameOperands i s u) (he : exec i s = .next t) :
    exec i (s.withUnread u) = .next (t.withUnread (u.finish .ok)) := by
  rw [exec_eq_complete] at he ⊢
  have hf := firstError_withUnread h
  obtain ⟨hc, rfl⟩ | ⟨hc, rfl⟩ := complete_next he
  · rw [complete_ok (hf.trans hc), effectOf_withUnread h]
    rfl
  · rw [complete_error (hf ▸ hc), hf]
    rfl

/-- COUNTER and NONCE being the same, the engine's turn reads none of these fields, whatever the outstanding word. -/
theorem engineTurn_withUnread (hcounter : u.counter = s.counter) (hnonce : u.nonce = s.nonce)
    (he : engineTurn s = .next t) (hb : s.busy = true) :
    engineTurn (s.withUnread u) = .next (t.withUnread (u.finish .ok)) := by
  have hturn : engineTurn (s.withUnread u) = completion (s.withUnread u) := if_pos hb
  obtain ⟨hidle, -⟩ | ⟨-, i, hi, hexec⟩ | ⟨-, ⟨e, herr⟩, rfl⟩ := engineTurn_next he
  · cases hb.symm.trans hidle
  · have hs : SameOperands i s u := ⟨fun _ => hcounter, fun _ _ _ _ => by rw [hnonce]⟩
    rw [hturn, completion, show decode (s.withUnread u).lastcmd = .ok i from hi]
    exact exec_withUnread hs hexec
  · rw [hturn, completion, show decode (s.withUnread u).lastcmd = .error e from herr]
    rfl

/-- The frame of a completion, for the fields it does not read: a command writes none of them but DONE. -/
theorem exec_withUnread_self {i : Instr} (he : exec i s = .next t) : t.withUnread (s.finish .ok) = t := by
  obtain ⟨_, he', -, hdone⟩ := exec_next_done i s
  cases he.symm.trans he'
  obtain ⟨⟨hie, haerr, -, -, -, -, hcounter, -, -, -, -, -, -, hnonce⟩, -, -, -, -, -, -, -, -, -, hrdata, hagenda⟩ :=
    registersHaveTheirWritersOnly i s t he
  simp [State.withUnread, ← hie, ← haerr, ← hcounter, ← hnonce, ← hrdata, ← hagenda, ← hdone]

/-- A command gives the same result, COUNTER and NONCE apart, with other values where it does not read them. -/
theorem exec_other_operands {i : Instr} {c : Word} {n : Vector Word 6}
    (h : SameOperands i s { s with counter := c, nonce := n }) :
    ∃ t, exec i s = .next t ∧
      exec i { s with counter := c, nonce := n } = .next { t with counter := c, nonce := n } := by
  obtain ⟨t, he, -⟩ := exec_next_done i s
  refine ⟨t, he, (exec_withUnread h he).trans ?_⟩
  conv_rhs => rw [← exec_withUnread_self he]
  rfl

/-- Settles O35: what follows the words of the nonce length, and COUNTER for HChaCha20, is not among the operands. -/
theorem nonceWordsBeyondTheLengthAreNotRead : Obligations.NonceWordsBeyondTheLengthAreNotRead := by
  intro s x y z c
  refine ⟨fun i hi => ?_, fun i hi => ?_⟩
  · have hsize : nonceSize i = some 12 := by
      simp only [List.mem_cons, List.not_mem_nil, or_false] at hi
      obtain rfl | rfl | rfl | rfl := hi <;> rfl
    obtain ⟨t, he, hother⟩ := exec_other_operands (i := i) (s := s) (c := s.counter)
      (n := #v[s.nonce[0], s.nonce[1], s.nonce[2], x, y, z]) ⟨fun _ => rfl, fun n hn => by
        cases hsize.symm.trans hn
        simp [Fin.forall_fin_succ]⟩
    have hc : s.counter = t.counter := by
      rw [← exec_withUnread_self he]
      rfl
    exact ⟨t, he, hc ▸ hother⟩
  · have hi' : i = .stldHc ∨ i = .hchacha := by simpa using hi
    refine exec_other_operands ⟨fun hr => ?_, fun n hn => ?_⟩
    · obtain rfl | rfl := hi' <;> simp at hr
    · have hsize : nonceSize i = some 16 := by obtain rfl | rfl := hi' <;> rfl
      cases hsize.symm.trans hn
      simp [Fin.forall_fin_succ]

/-! ### The busy window -/

/-- `u` is `s` after host accesses that leave the outstanding command alone. -/
structure SameCommand (s u : State) : Prop where
  eq_withUnread : u = s.withUnread u
  counter : u.counter = s.counter
  nonce : u.nonce = s.nonce

theorem SameCommand.trans {v : State} (h₁ : SameCommand s u) (h₂ : SameCommand u v) : SameCommand s v := by
  refine ⟨?_, h₂.counter.trans h₁.counter, h₂.nonce.trans h₁.nonce⟩
  calc v = u.withUnread v := h₂.eq_withUnread
    _ = (s.withUnread u).withUnread v := congrArg (State.withUnread · v) h₁.eq_withUnread
    _ = s.withUnread v := rfl

theorem width_of_performed {a : HostAccess} (hp : a.performed = true) : a.width = 32 := by
  simp only [HostAccess.performed, Bool.and_eq_true, beq_iff_eq] at hp
  exact hp.1

theorem hostAccess_in_window {a : HostAccess} (hw : a.offset < s.windowEnd) : ∃ u, hostAccess a s = .next u := by
  simp only [hostAccess, if_neg (Nat.not_le.2 hw)]
  cases a.performed <;> cases a <;> exact ⟨_, rfl⟩

/-- In the busy window the host reaches only CTRL.IE, DONE, AERR and the read data (R60, R103). -/
theorem hostAccess_busy {a : HostAccess} (hb : s.busy = true) (hw : a.offset < s.windowEnd) (hr : ¬SoftResets a) :
    ∃ u, hostAccess a s = .next u ∧ SameCommand s u ∧ u.agenda = s.agenda := by
  obtain ⟨u, hu⟩ := hostAccess_in_window (a := a) hw
  refine ⟨u, hu, ?_⟩
  obtain ⟨-, ⟨-, w, off, -, rfl⟩ | ⟨hp, w, off, v, rfl, rfl⟩ | ⟨-, -, rfl⟩ | ⟨-, -, rfl⟩⟩ := hostAccess_next hu
  · exact ⟨⟨rfl, rfl, rfl⟩, rfl⟩
  · cases hoff : writableWhileBusy off with
    | false =>
      rw [portWrite_busy v hb hoff]
      exact ⟨⟨rfl, rfl, rfl⟩, rfl⟩
    | true =>
      obtain rfl | rfl : off = Reg.ctrl.offset ∨ off = Reg.status.offset := by simpa [writableWhileBusy] using hoff
      · obtain rfl : w = 32 := width_of_performed hp
        have hsrst : v.getLsbD 1 = false := eq_false_of_ne_true fun hv => hr ⟨v, rfl, hv⟩
        rw [portWrite_offset v (.inr rfl), State.writeReg, writeCtrl_of_not_srst hsrst]
        exact ⟨⟨rfl, rfl, rfl⟩, rfl⟩
      · rw [portWrite_offset v (.inr rfl)]
        exact ⟨⟨rfl, rfl, rfl⟩, rfl⟩
  · exact ⟨⟨rfl, rfl, rfl⟩, rfl⟩
  · exact ⟨⟨rfl, rfl, rfl⟩, rfl⟩

theorem step_host_busy {a : HostAccess} {rest : List Turn} (hb : s.busy = true) (ha : s.agenda = .host a :: rest)
    (hw : a.offset < s.windowEnd) (hr : ¬SoftResets a) :
    ∃ v, step s = .next v ∧ SameCommand s v ∧ v.agenda = rest := by
  obtain ⟨v, hv, hsame, hagenda⟩ := hostAccess_busy (s := { s with agenda := rest }) hb hw hr
  refine ⟨v, ?_, ⟨hsame.eq_withUnread, hsame.counter, hsame.nonce⟩, hagenda⟩
  rw [step, ha]
  exact hv

theorem runSteps_one (s : State) : runSteps 1 s = step s := by
  simp only [runSteps]
  cases step s <;> rfl

/-- Host turns in the busy window, then the engine's turn. -/
theorem runSteps_hosts (hosts : List HostAccess) (rest : List Turn) : ∀ {s : State}, s.busy = true →
    s.agenda = hosts.map Turn.host ++ .engine :: rest → (∀ a ∈ hosts, a.offset < s.windowEnd ∧ ¬SoftResets a) →
    ∃ u, SameCommand s u ∧ u.agenda = rest ∧ runSteps (hosts.length + 1) s = engineTurn u := by
  induction hosts with
  | nil =>
    intro s _ ha _
    exact ⟨{ s with agenda := rest }, ⟨rfl, rfl, rfl⟩, rfl, (runSteps_one s).trans (step_engine (.inl ha))⟩
  | cons a hosts ih =>
    intro s hb ha h
    obtain ⟨hwindow, hreset⟩ := h a List.mem_cons_self
    obtain ⟨v, hstep, hv, hagenda⟩ := step_host_busy hb ha hwindow hreset
    have hbusy : v.busy = true := (congrArg State.busy hv.eq_withUnread).trans hb
    have hend : v.windowEnd = s.windowEnd := (congrArg State.windowEnd hv.eq_withUnread).trans rfl
    obtain ⟨u, hu, hrest, hrun⟩ := ih hbusy hagenda fun b hm => hend ▸ h b (List.mem_cons_of_mem a hm)
    refine ⟨u, hv.trans hu, hrest, ?_⟩
    rw [List.length_cons, runSteps, hstep]
    exact hrun

/-- A busy engine's turn completes the command, and what it does not read keeps its value, DONE apart. -/
theorem engineTurn_busy (hb : s.busy = true) :
    ∃ u, engineTurn s = .next u ∧ u.busy = false ∧ u.withUnread (s.finish .ok) = u := by
  rw [engineTurn, if_pos hb, completion]
  cases decode s.lastcmd with
  | error e => exact ⟨_, rfl, rfl, rfl⟩
  | ok i =>
    obtain ⟨u, he, hbusy, -⟩ := exec_next_done i s
    exact ⟨u, he, hbusy, exec_withUnread_self he⟩

/-- Settles O45: the host's turns leave the command and what it reads, so it completes as it would have at issue. -/
theorem issuedCommandsComplete : Obligations.IssuedCommandsComplete := by
  intro s hosts rest hb ha h
  obtain ⟨v, ⟨hv, hcounter, hnonce⟩, hagenda, hrun⟩ := runSteps_hosts hosts rest hb ha h
  obtain ⟨u, hu, hbusy, hself⟩ := engineTurn_busy hb
  refine ⟨u.withUnread (v.finish .ok), u, ?_, hu, hbusy, congrArg State.done hself.symm, ?_⟩
  · rw [hrun]
    exact (congrArg engineTurn hv).trans (engineTurn_withUnread hcounter hnonce hu hb)
  · conv_rhs => rw [← hself]
    simp [State.withUnread, hcounter, hnonce, hagenda]

end Sys2Proof.Machine
end

section
/-! PROOFS. Memory and the order of accesses: which turn a step takes and which accesses are refused or not performed
(20_memory.md R100, R102, R103, R112), the words of the buffer window (R105), and what the commands store in the buffer
(R106, R107; 40_chacha20_core.md R210, R222; 42_aead.md R304, R305; 44_xchacha20.md R364, R365). -/

namespace Sys2Proof.Machine

open Sys2Proof.Claims

variable {s t : State}

/-! ### Words and their bytes (R16, R45) -/

theorem le32_eq_ofNat_leInt : ∀ {B : List Byte}, B.length = 4 → le32 B 0 = BitVec.ofNat 32 (leInt B)
  | [a, b, c, d], _ => by
    simp only [le32, leInt, List.getD_cons_zero, List.getD_cons_succ]
    congr 1
    omega

theorem le32_ser32 (w : Word) : le32 (ser32 w) 0 = w := by
  rw [le32_eq_ofNat_leInt (ser32_length w), leInt_ser32, BitVec.ofNat_toNat, BitVec.setWidth_eq]

/-- Four bytes are the bytes of the word they make: both strings have the same length and the same value. -/
theorem ser32_le32 {B : List Byte} (h : B.length = 4) : ser32 (le32 B 0) = B := by
  have hlt : leInt B < 2 ^ 32 := by simpa [h] using leInt_lt B
  have hvalue : leInt (ser32 (le32 B 0)) = leInt B := by
    rw [leInt_ser32, le32_eq_ofNat_leInt h, BitVec.toNat_ofNat, Nat.mod_eq_of_lt hlt]
  rw [← serN_leInt (ser32 (le32 B 0)), hvalue, ser32_length, ← h, serN_leInt]

/-- A tag in TAG0-3 serialises to its 16 bytes. -/
theorem serW_tagWords : ∀ {T : List Byte}, T.length = 16 → serW (tagWords T).toList = T
  | [b₀, b₁, b₂, b₃, b₄, b₅, b₆, b₇, b₈, b₉, b₁₀, b₁₁, b₁₂, b₁₃, b₁₄, b₁₅], _ => by
    change ser32 (le32 [b₀, b₁, b₂, b₃] 0) ++ (ser32 (le32 [b₄, b₅, b₆, b₇] 0) ++
      (ser32 (le32 [b₈, b₉, b₁₀, b₁₁] 0) ++ (ser32 (le32 [b₁₂, b₁₃, b₁₄, b₁₅] 0) ++ []))) = _
    rw [ser32_le32 rfl, ser32_le32 rfl, ser32_le32 rfl, ser32_le32 rfl]
    rfl

theorem ser32_getElem (w : Word) : ∀ (j : Nat) (h : j < 4), (ser32 w)[j] = w.extractLsb' (8 * j) 8
  | 0, _ | 1, _ | 2, _ | 3, _ => rfl

/-! ### The turns of a step (R100, R102, R112) -/

theorem step_host {a : HostAccess} {rest : List Turn} (h : s.agenda = .host a :: rest) :
    step s = hostAccess a { s with agenda := rest } := by
  rw [step, h]

theorem step_powerOn {rest : List Turn} (h : s.agenda = .powerOn :: rest) :
    step s = .next (State.powerOn { s with agenda := rest }) := by
  rw [step, h]

theorem engineTurn_idle (hb : s.busy = false) : engineTurn s = .next s :=
  if_neg (by simp [hb])

theorem engineTurn_command {i : Instr} (hb : s.busy = true) (hi : decode s.lastcmd = .ok i) :
    engineTurn s = exec i s := by
  simp only [engineTurn, hb, if_true, completion, hi]

/-- The engine never refuses (R400). -/
theorem engineTurn_ne_refused (s : State) (r : Refusal) : engineTurn s ≠ .refused r := by
  intro h
  cases hb : s.busy with
  | false => cases (engineTurn_idle hb).symm.trans h
  | true =>
    obtain ⟨u, hu, -⟩ := engineTurn_busy hb
    cases hu.symm.trans h

/-- An access is refused exactly beyond the window (R102). -/
theorem hostAccess_eq_refused {a : HostAccess} {r : Refusal} :
    hostAccess a s = .refused r ↔ r = .outsideWindow ∧ s.windowEnd ≤ a.offset := by
  by_cases hw : s.windowEnd ≤ a.offset
  · have href : hostAccess a s = .refused .outsideWindow := if_pos hw
    simp [href, hw, eq_comm]
  · obtain ⟨u, hu⟩ := hostAccess_in_window (Nat.not_le.1 hw)
    rw [hu]
    exact iff_of_false nofun fun h => hw h.2

/-- Settles O5: a case of `step` for each turn, and of the engine's turn for BUSY. -/
theorem stepRunsOutstandingCommand : Obligations.StepRunsOutstandingCommand := by
  intro s rest
  refine ⟨fun i hn hb hi _ => ?_, fun hn _ => step_engine hn, fun hn hb => ?_, fun a => step_host, step_powerOn⟩
  · exact (step_engine hn).trans (engineTurn_command hb hi)
  · exact (step_engine hn).trans (engineTurn_idle hb)

/-- Settles O51: only a host's turn can refuse, and it does so exactly beyond the window. -/
theorem onlyAccessesOutsideTheWindowAreRefused : Obligations.OnlyAccessesOutsideTheWindowAreRefused := by
  intro s r
  cases ha : s.agenda with
  | nil =>
    rw [step_engine (.inr ⟨ha, rfl⟩)]
    exact iff_of_false (engineTurn_ne_refused _ r) (by simp)
  | cons turn rest =>
    cases turn with
    | engine =>
      rw [step_engine (.inl ha)]
      exact iff_of_false (engineTurn_ne_refused _ r) (by simp)
    | powerOn =>
      rw [step_powerOn ha]
      exact iff_of_false nofun (by simp)
    | host a =>
      rw [step_host ha, hostAccess_eq_refused]
      simp [State.windowEnd, bufBase]

/-! ### Accesses to the buffer window, and accesses not performed (R103, R105) -/

/-- A write of another width or alignment only sets AERR (R103). -/
theorem hostAccess_write_not_performed {width off : Nat} {v : Word} (hw : off < s.windowEnd)
    (hp : (HostAccess.write width off v).performed = false) :
    hostAccess (.write width off v) s = .next { s with aerr := true } := by
  simp [hostAccess, HostAccess.offset, hp, Nat.not_le.2 hw]

theorem portRead_buffer (hb : s.busy = false) (a : Nat) : s.portRead (bufBase + a) = le32 (s.memRead a 4) 0 := by
  rw [State.portRead, if_neg (by simp [hb]), if_neg (by omega), Nat.add_sub_cancel_left]

theorem portWrite_buffer (hb : s.busy = false) (a : Nat) (v : Word) :
    s.portWrite (bufBase + a) v = s.memWrite a (ser32 v) := by
  rw [State.portWrite, if_neg (by simp [hb]), if_neg (by omega), Nat.add_sub_cancel_left]

theorem hostAccess_read_buffer {k : Nat} (hb : s.busy = false) (hk : 4 * k < s.cfg.bufSize) :
    hostAccess (.read 32 (bufBase + 4 * k)) s = .next { s with rdata := le32 (s.memRead (4 * k) 4) 0 } := by
  rw [hostAccess_read (Nat.add_lt_add_left hk bufBase) (by simp [bufBase, Nat.add_mod]), portRead_buffer hb]
  rfl

theorem hostAccess_write_buffer {k : Nat} (v : Word) (hb : s.busy = false) (hk : 4 * k < s.cfg.bufSize) :
    hostAccess (.write 32 (bufBase + 4 * k) v) s = .next (s.memWrite (4 * k) (ser32 v)) := by
  rw [hostAccess_write v (Nat.add_lt_add_left hk bufBase) (by simp [bufBase, Nat.add_mod]), portWrite_buffer hb]

/-- Settles O50: the port performs exactly the accesses that are 32 bits wide and aligned. -/
theorem otherAccessesAreNotPerformed : Obligations.OtherAccessesAreNotPerformed := by
  intro s width off v hw h
  have hp : (width == 32 && off % 4 == 0) = false := by
    rw [Bool.and_eq_false_iff, beq_eq_false_iff_ne, beq_eq_false_iff_ne]
    exact h
  exact ⟨hostAccess_read_not_performed hw hp, hostAccess_write_not_performed hw hp⟩

/-- Settles O49: the write is a buffer write of the word's four bytes, and the read makes a word of four bytes. -/
theorem bufferWordsAreLittleEndian : Obligations.BufferWordsAreLittleEndian := by
  intro s k hb hk
  refine ⟨fun v => ⟨_, hostAccess_write_buffer v hb hk, rfl, fun j hj => ?_, fun a ha => ?_, ?_⟩,
    hostAccess_read_buffer hb hk⟩
  · exact (readByte_memWrite_inside s (4 * k) (ser32 v) hj).trans (ser32_getElem v j hj)
  · exact readByte_memWrite_outside s (4 * k) (ser32 v) ha
  · have hread : (s.memWrite (4 * k) (ser32 v)).memRead (4 * k) 4 = ser32 v := memRead_memWrite s (4 * k) (ser32 v)
    refine (hostAccess_read_buffer (s := s.memWrite (4 * k) (ser32 v)) hb hk).trans ?_
    rw [hread, le32_ser32]

/-! ### A command whose checks all pass (R402, R403) -/

theorem exec_of_checks_pass {i : Instr} (h : ∀ c ∈ checksOf i, c.1 s = true) :
    exec i s = .next ((effectOf i s).finish .ok) := by
  rw [exec_eq_complete, complete_ok ((firstError_eq_ok (checksOf_code_ne_ok i)).2 h)]

/-- LEN is a word, so the body of an AEAD command never runs out of counters (R306): only the regions are left. -/
theorem aeadRegionChecks_pass (h : RegionsOk s) : ∀ c ∈ aeadRegionChecks, c.1 s = true := by
  obtain ⟨haad, hsrc, hdst⟩ := h
  have hlen := s.len.isLt
  have hbody : ceilDiv s.len.toNat 64 ≤ 4294967295 := by
    rw [ceilDiv]
    omega
  simp [aeadRegionChecks, chkAad, chkSrc, chkDst, chkBody, State.inRange, haad, hsrc, hdst, hbody]

/-! ### XOR with the keystream into (DST, LEN) (R210, R222) -/

/-- Byte k of XORKS is byte k of the message XORed with the keystream byte that the statements name. -/
theorem xorKs_getElem_streamByte (keys : Vector Word 8 × Vector Word 3) (c : Nat) (M : List Byte) {k : Nat}
    (hk : k < M.length) :
    (xorKs keys.1 keys.2 c M).1[k]'(by rwa [xorKs_length]) = M[k] ^^^ streamByte keys c k := by
  rw [xorKs_getElem, streamByte, List.getD_eq_getElem]

/-- A state that holds the message XORed with the keystream at DST, and the old buffer elsewhere. -/
theorem xorsIntoDst_memWrite {keys : Vector Word 8 × Vector Word 3} {c : Nat}
    (hbuf : t.buf = (s.memWrite s.dst.toNat (xorKs keys.1 keys.2 c s.srcBytes).1).buf)
    (hpower : t.powerOns = s.powerOns) : XorsIntoDst keys c s t := by
  have hread (a : Nat) : t.readByte a = (s.memWrite s.dst.toNat (xorKs keys.1 keys.2 c s.srcBytes).1).readByte a :=
    readByte_congr hbuf hpower a
  refine ⟨fun k hk => ?_, fun a ha => ?_⟩
  · have hk' : k < s.srcBytes.length := by rwa [srcBytes_length]
    rw [hread, readByte_memWrite_inside s _ _ (by rwa [xorKs_length]), xorKs_getElem_streamByte keys c _ hk']
    simp only [State.srcBytes, memRead_getElem]
  · rw [hread, readByte_memWrite_outside s _ _ (by simpa using ha)]

theorem ccXorEffect_xorsIntoDst (s : State) :
    XorsIntoDst (s.cckey, s.ccnonce) s.ccnext s ((ccXorEffect s).finish .ok) :=
  xorsIntoDst_memWrite rfl rfl

/-- Settles O19: the checks pass, and the effect stores XORKS of the message, read before anything is written. -/
theorem ccXorStoresMessageXorKeystream : Obligations.CcXorStoresMessageXorKeystream := by
  intro s hsrc hdst hvalid hcounter
  have hleft : (chkCounter fun s => ceilDiv s.len.toNat 64).1 s = true := decide_eq_true hcounter
  have hpass : ∀ c ∈ checksOf .ccXor, c.1 s = true := by
    simp [checksOf, chkSrc, chkDst, chkValid, State.inRange, hsrc, hdst, hvalid, hleft]
  refine ⟨_, exec_of_checks_pass hpass, ?_, ccXorEffect_xorsIntoDst s⟩
  have hnext : (ccXorEffect s).ccnext = s.ccnext + (s.len.toNat + 63) / 64 := by
    simp [ccXorEffect, xorKs_next, ceilDiv]
  rw [← hnext]
  rfl

/-! ### The AEAD commands (R301 to R305) -/

/-- The tag of the model is the one the statements write out: padding, lengths and the one-time key (R300 to R303). -/
theorem tagOver_eq_aeadTag (keys : Vector Word 8 × Vector Word 3) (A C : List Byte) :
    tagOver keys A C = aeadTag keys.1 keys.2 A C := by
  simp only [tagOver, aeadTag, macData, padded, pad16, zeros, polyKey, List.append_assoc]

theorem aeadTag_length (kw : Vector Word 8) (nw : Vector Word 3) (A C : List Byte) :
    (aeadTag kw nw A C).length = 16 := by
  simp [aeadTag, poly, polyTag]

theorem openResult_of_tagMatches {keys : Vector Word 8 × Vector Word 3} (h : TagMatches keys s) :
    openResult keys.1 keys.2 s = some (xorKs keys.1 keys.2 1 s.srcBytes).1 := by
  have htag : s.tagBytes = aeadTag keys.1 keys.2 s.aadBytes s.srcBytes := h.trans (tagOver_eq_aeadTag keys _ _)
  rw [openResult, openMessage, if_pos (by simp [tagEq, htag])]

theorem sealEffect_seals (keys : Vector Word 8 × Vector Word 3) (s : State) :
    Seals keys s ((sealEffect keys.1 keys.2 s).finish .ok) := by
  refine ⟨rfl, xorsIntoDst_memWrite rfl rfl, ?_⟩
  have hread : ((sealEffect keys.1 keys.2 s).finish .ok).memRead s.dst.toNat s.len.toNat =
      (xorKs keys.1 keys.2 1 s.srcBytes).1 := by
    refine (memRead_congr (t := (sealEffect keys.1 keys.2 s).finish .ok)
      (s := s.memWrite s.dst.toNat (xorKs keys.1 keys.2 1 s.srcBytes).1) rfl rfl _ _).trans ?_
    simpa using memRead_memWrite s s.dst.toNat (xorKs keys.1 keys.2 1 s.srcBytes).1
  rw [hread, tagOver_eq_aeadTag]
  exact serW_tagWords (aeadTag_length _ _ _ _)

theorem openEffect_opens {keys : Vector Word 8 × Vector Word 3} (h : TagMatches keys s) :
    (openEffect keys.1 keys.2 s).finish .ok = done { s with buf := (openEffect keys.1 keys.2 s).buf } ∧
      XorsIntoDst keys 1 s ((openEffect keys.1 keys.2 s).finish .ok) := by
  rw [openEffect, openResult_of_tagMatches h]
  exact ⟨rfl, xorsIntoDst_memWrite rfl rfl⟩

/-- The declared lengths and the regions are all that an encryption checks (R308, R364). -/
theorem encryptionChecks_pass {n : Byte} (hkey : s.keyLen = 32) (hnonce : s.nonceLen = n) (hregions : RegionsOk s) :
    ∀ c ∈ [chkKey, chkNonce n] ++ aeadRegionChecks, c.1 s = true := by
  simpa [chkKey, chkNonce, hkey, hnonce] using aeadRegionChecks_pass hregions

/-- A decryption checks TAG_LEN and the tag too (R309, R365). -/
theorem decryptionChecks_pass {n : Byte} {keys : State → Vector Word 8 × Vector Word 3} (hkey : s.keyLen = 32)
    (hnonce : s.nonceLen = n) (htaglen : s.tagLen = 16) (hregions : RegionsOk s) (htag : TagMatches (keys s) s) :
    ∀ c ∈ [chkKey, chkNonce n, chkTagLen] ++ aeadRegionChecks ++ [chkAuth keys], c.1 s = true := by
  have hauth : (chkAuth keys).1 s = true := by simp [chkAuth, openResult_of_tagMatches htag]
  simpa [chkKey, chkNonce, chkTagLen, hkey, hnonce, htaglen, or_imp, forall_and, hauth]
    using aeadRegionChecks_pass hregions

/-- Settles O30: both commands seal, under the key and nonce of R308 and under the derived ones of R361. -/
theorem encryptionSealsTheMessage : Obligations.EncryptionSealsTheMessage := by
  intro s hkey hregions
  refine ⟨fun hnonce => ?_, fun hnonce => ?_⟩
  · have hpass : ∀ c ∈ checksOf .aeadEnc, c.1 s = true := encryptionChecks_pass hkey hnonce hregions
    exact ⟨_, exec_of_checks_pass hpass, sealEffect_seals (chachaKeys s) s⟩
  · have hpass : ∀ c ∈ checksOf .xaeadEnc, c.1 s = true := encryptionChecks_pass hkey hnonce hregions
    exact ⟨_, exec_of_checks_pass hpass, sealEffect_seals (xchachaKeys s) s⟩

/-- Settles O31: both commands open, under the key and nonce of R309 and under the derived ones of R361. -/
theorem decryptionOpensTheMessage : Obligations.DecryptionOpensTheMessage := by
  intro s hkey htaglen hregions
  refine ⟨fun hnonce htag => ?_, fun hnonce htag => ?_⟩
  · have hpass : ∀ c ∈ checksOf .aeadDec, c.1 s = true := decryptionChecks_pass hkey hnonce htaglen hregions htag
    exact ⟨_, exec_of_checks_pass hpass, openEffect_opens htag⟩
  · have hpass : ∀ c ∈ checksOf .xaeadDec, c.1 s = true := decryptionChecks_pass hkey hnonce htaglen hregions htag
    exact ⟨_, exec_of_checks_pass hpass, openEffect_opens htag⟩

/-! ### What a command leaves of the buffer (R106) -/

theorem readByte_sealEffect_outside (keys : Vector Word 8 × Vector Word 3) {a : Nat}
    (h : a < s.dst.toNat ∨ s.dst.toNat + s.len.toNat ≤ a) : (sealEffect keys.1 keys.2 s).readByte a = s.readByte a := by
  obtain ⟨-, ⟨-, hframe⟩, -⟩ := sealEffect_seals keys s
  exact hframe a h

/-- OPEN writes the plaintext to (DST, LEN), or nothing. -/
theorem readByte_openEffect_outside (kw : Vector Word 8) (nw : Vector Word 3) {a : Nat}
    (h : a < s.dst.toNat ∨ s.dst.toNat + s.len.toNat ≤ a) : (openEffect kw nw s).readByte a = s.readByte a := by
  rw [openEffect]
  split
  next P hP => exact readByte_memWrite_outside s _ _ (by simpa [openMessage_eq_some hP] using h)
  next => rfl

theorem readByte_ccBlockEffect (s : State) (a : Nat) : (ccBlockEffect s).readByte a =
    (s.memWrite s.dst.toNat (keystreamBlock s.cckey (BitVec.ofNat 32 s.ccnext) s.ccnonce)).readByte a :=
  readByte_congr (by simp only [ccBlockEffect]) (by simp only [ccBlockEffect]) a

theorem readByte_effectOf_outside {i : Instr} {a : Nat} (h : a < s.dst.toNat ∨ s.dst.toNat + storedBytes s i ≤ a) :
    (effectOf i s).readByte a = s.readByte a := by
  cases i with
  | qr | colrnd | diagrnd | dblrnd | perm20 | core20 | stldCc | stldHc | ccInit | hchacha | xcInit =>
    apply readByte_congr <;> simp [effectOf]
  | pInit | pTag => apply readByte_congr <;> rfl
  | ccBlock =>
    refine (readByte_ccBlockEffect s a).trans (readByte_memWrite_outside s _ _ ?_)
    simpa only [keystreamBlock_length, storedBytes] using h
  | ccXor =>
    obtain ⟨-, hframe⟩ := ccXorEffect_xorsIntoDst s
    exact hframe a h
  | aeadEnc => exact readByte_sealEffect_outside s.aeadKeys h
  | xaeadEnc => exact readByte_sealEffect_outside s.xKeys h
  | aeadDec | xaeadDec => exact readByte_openEffect_outside _ _ h

/-- Settles O41: a completion changes the buffer by the command's effect alone, and an error completion not at all. -/
theorem storesStayInTheirRegion : Obligations.StoresStayInTheirRegion := by
  intro i s t he a ha
  rw [exec_eq_complete] at he
  obtain ⟨-, rfl⟩ | ⟨-, rfl⟩ := complete_next he
  · exact readByte_effectOf_outside ha
  · rfl

end Sys2Proof.Machine
end

section
/-! PROOFS. The command word: its fields, the words that decode, and how the encoder and the decoder meet
(30_encoding.md R140 to R144); and the completion of a QR whose indices are not pairwise distinct (R142, R212). -/

namespace Sys2Proof

/-! ### The fields of a command word (R140 to R143) -/

/-- The reserved byte, the middle field and OP are all of the word. -/
theorem fields_append (w : Word) : topField w ++ midField w ++ opField w = w := by
  simp only [topField, midField, opField, BitVec.extractLsb'_append_extractLsb'_eq_extractLsb',
    BitVec.extractLsb'_eq_self]

/-- The middle field of a word is the four indices that QR reads from it, QA lowest. -/
theorem midField_eq_middle_qr (w : Word) :
    midField w = (Instr.qr (qaField w) (qbField w) (qcField w) (qdField w)).middle := by
  simp only [midField, qaField, qbField, qcField, qdField, Instr.middle, BitVec.ofFin_toFin,
    BitVec.extractLsb'_append_extractLsb'_eq_extractLsb']

/-- A word is the encoding of the command whose opcode and middle field it holds under a zero reserved byte. -/
theorem encode_eq_of_fields {w : Word} {i : Instr} (htop : topField w = 0) (hmid : midField w = i.middle)
    (hop : opField w = i.opcode) : encode i = w := by
  rw [encode, ← htop, ← hmid, ← hop, fields_append]

theorem bitVec_append_inj {m n : Nat} {x x' : BitVec m} {y y' : BitVec n} (h : x ++ y = x' ++ y') :
    x = x' ∧ y = y' := by
  have hleft := congrArg (BitVec.extractLsb' n m) h
  have hright := congrArg (BitVec.extractLsb' 0 n) h
  rw [BitVec.extractLsb'_append_eq_left, BitVec.extractLsb'_append_eq_left] at hleft
  rw [BitVec.extractLsb'_append_eq_right, BitVec.extractLsb'_append_eq_right] at hright
  exact ⟨hleft, hright⟩

theorem fields_encode (i : Instr) :
    topField (encode i) = 0 ∧ midField (encode i) = i.middle ∧ opField (encode i) = i.opcode := by
  obtain ⟨hupper, hop⟩ := bitVec_append_inj (fields_append (encode i))
  obtain ⟨htop, hmid⟩ := bitVec_append_inj hupper
  exact ⟨htop, hmid, hop⟩

theorem middle_qr_inj {a b c d a' b' c' d' : Fin 16}
    (h : (Instr.qr a b c d).middle = (Instr.qr a' b' c' d').middle) : a = a' ∧ b = b' ∧ c = c' ∧ d = d' := by
  obtain ⟨hdcb, ha⟩ := bitVec_append_inj h
  obtain ⟨hdc, hb⟩ := bitVec_append_inj hdcb
  obtain ⟨hd, hc⟩ := bitVec_append_inj hdc
  exact ⟨congrArg BitVec.toFin ha, congrArg BitVec.toFin hb, congrArg BitVec.toFin hc, congrArg BitVec.toFin hd⟩

theorem indices_encode_qr (a b c d : Fin 16) :
    qaField (encode (.qr a b c d)) = a ∧ qbField (encode (.qr a b c d)) = b ∧
    qcField (encode (.qr a b c d)) = c ∧ qdField (encode (.qr a b c d)) = d := by
  obtain ⟨-, hmid, -⟩ := fields_encode (.qr a b c d)
  exact middle_qr_inj ((midField_eq_middle_qr _).symm.trans hmid)

/-! ### The opcode map and the decoder (R144) -/

/-- Every row less QR: its opcode is the command's, and the other bits of the command's word are 0. -/
theorem fixedRows_spec :
    ∀ r ∈ fixedRows, r.2.opcode = r.1 ∧ r.2.middle = 0 ∧ r.2.wellFormed = true := by
  decide

/-- All that a word can decode to: QR with the word's own four indices, or the row of its opcode. -/
theorem decode_ok {w : Word} {i : Instr} (h : decode w = .ok i) :
    topField w = 0 ∧
    ((opField w = qrOpcode ∧ i = .qr (qaField w) (qbField w) (qcField w) (qdField w) ∧ i.wellFormed = true) ∨
     ((opField w, i) ∈ fixedRows ∧ midField w = 0)) := by
  unfold decode at h
  split at h
  next => cases h
  next htop =>
    refine ⟨not_not.1 htop, ?_⟩
    split at h
    next hop =>
      split at h
      next hdistinct => cases h; exact .inl ⟨hop, rfl, hdistinct⟩
      next => cases h
    next =>
      split at h
      next => cases h
      next j hj =>
        split at h
        next hmid =>
          cases h
          obtain ⟨l₁, l₂, hrows, -⟩ := List.lookup_eq_some_iff.1 hj
          exact .inr ⟨by simp [hrows], hmid⟩
        next => cases h

theorem decode_of_qrOpcode {w : Word} (htop : topField w = 0) (hop : opField w = qrOpcode)
    (hdistinct : indicesDistinct (qaField w) (qbField w) (qcField w) (qdField w) = true) :
    decode w = .ok (.qr (qaField w) (qbField w) (qcField w) (qdField w)) := by
  rw [decode, if_neg (not_not.2 htop), if_pos hop, if_pos hdistinct]

theorem decode_encode (i : Instr) (hwf : i.wellFormed = true) : decode (encode i) = .ok i := by
  cases i with
  | qr a b c d =>
    obtain ⟨htop, -, hop⟩ := fields_encode (.qr a b c d)
    obtain ⟨ha, hb, hc, hd⟩ := indices_encode_qr a b c d
    have h := decode_of_qrOpcode htop hop (by rw [ha, hb, hc, hd]; exact hwf)
    rwa [ha, hb, hc, hd] at h
  | colrnd | diagrnd | dblrnd | perm20 | core20 | stldCc | stldHc | ccInit | ccBlock | ccXor | pInit | pTag
  | aeadEnc | aeadDec | hchacha | xcInit | xaeadEnc | xaeadDec => rfl

/-! ### The obligations -/

/-- Settles O3: QR reads its four indices back from their nibbles; the word of every other command is one constant. -/
theorem decodeAfterEncode : Obligations.DecodeAfterEncode :=
  decode_encode

/-- Settles O4: in both cases of `decode_ok` the three fields of the word are those of the command's encoding. -/
theorem encodeAfterDecode : Obligations.EncodeAfterDecode := by
  intro w i h
  obtain ⟨htop, ⟨hop, rfl, hwf⟩ | ⟨hrow, hmid⟩⟩ := decode_ok h
  · exact ⟨encode_eq_of_fields htop (midField_eq_middle_qr w) hop, hwf⟩
  · obtain ⟨hopcode, hmiddle, hwf⟩ := fixedRows_spec _ hrow
    exact ⟨encode_eq_of_fields htop (hmid.trans hmiddle.symm) hopcode.symm, hwf⟩

/-- Settles O1: each word written out is the encoding of its command, which is legal. -/
theorem opcodeMapWordsDecode : Obligations.OpcodeMapWordsDecode :=
  ⟨decode_encode (.qr 0 1 2 3) rfl, decode_encode (.qr 2 7 8 13) rfl,
    decode_encode .colrnd rfl, decode_encode .diagrnd rfl, decode_encode .dblrnd rfl,
    decode_encode .perm20 rfl, decode_encode .core20 rfl, decode_encode .stldCc rfl,
    decode_encode .stldHc rfl, decode_encode .ccInit rfl, decode_encode .ccBlock rfl,
    decode_encode .ccXor rfl, decode_encode .pInit rfl, decode_encode .pTag rfl,
    decode_encode .aeadEnc rfl, decode_encode .aeadDec rfl, decode_encode .hchacha rfl,
    decode_encode .xcInit rfl, decode_encode .xaeadEnc rfl, decode_encode .xaeadDec rfl⟩

end Sys2Proof

namespace Sys2Proof.Machine

theorem indicesDistinct_eq_false {a b c d : Fin 16} :
    indicesDistinct a b c d = false ↔ a = b ∨ a = c ∨ a = d ∨ b = c ∨ b = d ∨ c = d := by
  simp only [indicesDistinct, Bool.and_eq_false_iff, bne_eq_false_iff_eq, or_assoc]

/-- Settles O7: the one check of QR fails. -/
theorem qrRepeatedIndicesIllegal : Obligations.QrRepeatedIndicesIllegal := by
  intro s a b c d hrepeated
  have hcode : firstError s (checksOf (.qr a b c d)) = .illegalCmd := by
    simp [checksOf, chkDistinct, indicesDistinct_eq_false.2 hrepeated]
  rw [exec_eq_complete, complete_error (by simp [hcode]), hcode]
  rfl

end Sys2Proof.Machine
end

section
/-! PROOFS. The working matrix: what a quarter round, a round and the permutation do to the words of a matrix, that
none of them loses anything, and the commands on STATE (40_chacha20_core.md R200 to R219). -/

namespace Sys2Proof.Machine

open Sys2Proof.Claims

variable {X Y : Vector Word 16} {s : State}

/-! ### The quarter round of four words (R15, R201) -/

theorem rotl_eq_rotateLeft (x : Word) {n : Nat} (h : n < 32) : rotl x n = x.rotateLeft n := by
  rw [rotl, BitVec.rotateLeft_def, Nat.mod_eq_of_lt h]

/-- The bit at i goes to the place n higher, round the word. -/
theorem getLsbD_rotl (x : Word) {n i : Nat} (hn : n < 32) (hi : i < 32) :
    (rotl x n).getLsbD ((i + n) % 32) = x.getLsbD i := by
  rw [rotl_eq_rotateLeft x hn, BitVec.getLsbD_rotateLeft, Nat.mod_eq_of_lt hn]
  by_cases hwrap : i + n < 32
  · simp [Nat.mod_eq_of_lt hwrap, hwrap]
  · have hplace : (i + n) % 32 = i + n - 32 := by omega
    have hlow : i + n - 32 < n := by omega
    have hback : 32 - n + (i + n - 32) = i := by omega
    simp [hplace, hlow, hback]

theorem rotl_injective {n : Nat} (hn : n < 32) : Function.Injective fun x => rotl x n := by
  intro x y h
  apply BitVec.eq_of_getLsbD_eq
  intro i hi
  rw [← getLsbD_rotl x hn hi, ← getLsbD_rotl y hn hi]
  exact congrArg (BitVec.getLsbD · _) h

/-- Half a quarter round, two of the four steps of R201, with the rotations as parameters. -/
def halfQuarter (m n : Nat) (w : Word × Word × Word × Word) : Word × Word × Word × Word :=
  let a := w.1 + w.2.1
  let d := rotl (w.2.2.2 ^^^ a) m
  let c := w.2.2.1 + d
  (a, rotl (w.2.1 ^^^ c) n, c, d)

/-- The quarter round on a group of words. -/
abbrev mix (w : Word × Word × Word × Word) : Word × Word × Word × Word := quarterRound w.1 w.2.1 w.2.2.1 w.2.2.2

theorem mix_eq_halves (w : Word × Word × Word × Word) : mix w = halfQuarter 8 7 (halfQuarter 16 12 w) := rfl

/-- Each step can be undone by the words the later steps leave as they are: d, then c, then b, then a. -/
theorem halfQuarter_injective {m n : Nat} (hm : m < 32) (hn : n < 32) : Function.Injective (halfQuarter m n) := by
  rintro ⟨a, b, c, d⟩ ⟨a', b', c', d'⟩ h
  simp only [halfQuarter, Prod.mk.injEq] at h
  obtain ⟨ha, hb, hc, hd⟩ := h
  obtain rfl : d = d' := by simpa [ha] using rotl_injective hm hd
  obtain rfl : c = c' := by simpa [ha] using hc
  obtain rfl : b = b' := by simpa [ha] using rotl_injective hn hb
  obtain rfl : a = a' := by simpa using ha
  rfl

theorem mix_injective : Function.Injective mix :=
  (halfQuarter_injective (by decide) (by decide)).comp (halfQuarter_injective (by decide) (by decide))

/-! ### A quarter round on a group of a matrix (R202) -/

/-- Four indices into the matrix. -/
structure WordGroup where
  (a b c d : Fin 16)

def WordGroup.indices (g : WordGroup) : List (Fin 16) := [g.a, g.b, g.c, g.d]

def WordGroup.words (g : WordGroup) (X : Vector Word 16) : Word × Word × Word × Word := (X[g.a], X[g.b], X[g.c], X[g.d])

/-- `QRX` on a group (R202). -/
def WordGroup.round (g : WordGroup) (X : Vector Word 16) : Vector Word 16 := qrx X g.a g.b g.c g.d

variable {g h : WordGroup}

theorem getElem_round_of_notMem {m : Fin 16} (hm : m ∉ g.indices) : (g.round X)[m] = X[m] := by
  simp only [WordGroup.indices, List.mem_cons, List.not_mem_nil, or_false, not_or] at hm
  obtain ⟨ha, hb, hc, hd⟩ := hm
  rw [WordGroup.round, qrx, getElem_set_of_ne _ _ hd, getElem_set_of_ne _ _ hc, getElem_set_of_ne _ _ hb,
    getElem_set_of_ne _ _ ha]

/-- A quarter round on four distinct indices puts there the quarter round of the words that were there. -/
theorem words_round_self (hg : g.indices.Nodup) : g.words (g.round X) = mix (g.words X) := by
  obtain ⟨a, b, c, d⟩ := g
  simp only [WordGroup.indices, List.nodup_cons, List.mem_cons, List.not_mem_nil, or_false, not_or] at hg
  obtain ⟨⟨hab, hac, had⟩, ⟨hbc, hbd⟩, hcd, -⟩ := hg
  have hset (Z : Vector Word 16) (i : Fin 16) (v : Word) : (Z.set i v)[i] = v := Vector.getElem_set_self i.isLt
  simp only [WordGroup.words, WordGroup.round, qrx, getElem_set_of_ne, hset, hab, hac, had, hbc, hbd, hcd, ne_eq,
    not_false_eq_true]

theorem words_eq_iff : g.words X = g.words Y ↔ ∀ m ∈ g.indices, X[m] = Y[m] := by
  simp [WordGroup.words, WordGroup.indices]

/-- A quarter round on one of two groups without a common word leaves the words of the other. -/
theorem words_round_of_disjoint (hd : g.indices.Disjoint h.indices) : g.words (h.round X) = g.words X :=
  words_eq_iff.2 fun _ hm => getElem_round_of_notMem (hd hm)

/-- Of two matrices with the same words at a group, the group's quarter round gives the same words there. -/
theorem getElem_round_congr (hg : g.indices.Nodup) (hw : g.words X = g.words Y) {m : Fin 16} (hm : m ∈ g.indices) :
    (g.round X)[m] = (g.round Y)[m] :=
  words_eq_iff.1 (by rw [words_round_self hg, words_round_self hg, hw]) m hm

/-- With a quarter round on another group before it or after it, a group's quarter round gives the same words. -/
theorem getElem_round_comm (hg : g.indices.Nodup) (hd : g.indices.Disjoint h.indices) {m : Fin 16}
    (hm : m ∈ g.indices) : (g.round (h.round X))[m] = (h.round (g.round X))[m] := by
  rw [getElem_round_of_notMem (hd hm)]
  exact getElem_round_congr hg (words_round_of_disjoint hd) hm

theorem matrix_ext (h : ∀ m : Fin 16, X[m] = Y[m]) : X = Y :=
  Vector.ext fun k hk => h ⟨k, hk⟩

theorem round_comm (hg : g.indices.Nodup) (hh : h.indices.Nodup) (hd : g.indices.Disjoint h.indices) :
    h.round (g.round X) = g.round (h.round X) := by
  refine matrix_ext fun m => ?_
  by_cases hmg : m ∈ g.indices
  · exact (getElem_round_comm hg hd hmg).symm
  · by_cases hmh : m ∈ h.indices
    · exact getElem_round_comm hh hd.symm hmh
    · simp only [getElem_round_of_notMem, hmg, hmh, not_false_eq_true]

theorem round_injective (hg : g.indices.Nodup) : Function.Injective g.round := by
  intro X Y hXY
  have hwords : g.words X = g.words Y := mix_injective (by rw [← words_round_self hg, ← words_round_self hg, hXY])
  refine matrix_ext fun m => ?_
  by_cases hm : m ∈ g.indices
  · exact words_eq_iff.1 hwords m hm
  · rw [← getElem_round_of_notMem (X := X) hm, hXY, getElem_round_of_notMem hm]

/-! ### The rounds and the permutation (R203 to R206) -/

/-- Quarter rounds on several groups, the first one first. -/
def rounds : List WordGroup → Vector Word 16 → Vector Word 16
  | [], X => X
  | g :: gs, X => rounds gs (g.round X)

theorem getElem_rounds_of_notMem {m : Fin 16} {gs : List WordGroup} (hm : m ∉ gs.flatMap WordGroup.indices) :
    ∀ {X : Vector Word 16}, (rounds gs X)[m] = X[m] := by
  induction gs with
  | nil => exact rfl
  | cons g gs ih =>
    intro X
    rw [List.flatMap_cons, List.mem_append, not_or] at hm
    obtain ⟨hg, hgs⟩ := hm
    exact (ih hgs).trans (getElem_round_of_notMem hg)

/-- On groups without a common word, each group holds at the end the quarter round of its own words (R211). -/
theorem words_rounds {gs : List WordGroup} (hd : (gs.flatMap WordGroup.indices).Nodup) (hg : g ∈ gs) :
    ∀ {X : Vector Word 16}, g.words (rounds gs X) = mix (g.words X) := by
  induction gs with
  | nil => cases hg
  | cons h gs ih =>
    intro X
    obtain ⟨hnodup, htail, hdisjoint⟩ := List.nodup_append'.1 (List.flatMap_cons ▸ hd)
    obtain rfl | hmem := List.mem_cons.1 hg
    · exact (words_eq_iff.2 fun m hm => getElem_rounds_of_notMem (hdisjoint hm)).trans (words_round_self hnodup)
    · have hsub : g.indices ⊆ gs.flatMap WordGroup.indices := fun m hm => List.mem_flatMap.2 ⟨g, hmem, hm⟩
      rw [rounds, ih htail hmem, words_round_of_disjoint (List.disjoint_of_subset_left hsub hdisjoint.symm)]

theorem rounds_injective {gs : List WordGroup} (hd : ∀ g ∈ gs, g.indices.Nodup) : Function.Injective (rounds gs) := by
  induction gs with
  | nil => exact fun _ _ h => h
  | cons g gs ih =>
    exact (ih fun h hm => hd h (List.mem_cons_of_mem g hm)).comp (round_injective (hd g List.mem_cons_self))

/-- The groups of the column round (R203). -/
def columns : List WordGroup := [⟨0, 4, 8, 12⟩, ⟨1, 5, 9, 13⟩, ⟨2, 6, 10, 14⟩, ⟨3, 7, 11, 15⟩]

/-- The groups of the diagonal round (R204). -/
def diagonals : List WordGroup := [⟨0, 5, 10, 15⟩, ⟨1, 6, 11, 12⟩, ⟨2, 7, 8, 13⟩, ⟨3, 4, 9, 14⟩]

theorem columnRound_eq_rounds : columnRound = rounds columns := rfl

theorem diagonalRound_eq_rounds : diagonalRound = rounds diagonals := rfl

theorem words_columnRound (hg : g ∈ columns) : g.words (columnRound X) = mix (g.words X) :=
  words_rounds (by decide) hg

theorem words_diagonalRound (hg : g ∈ diagonals) : g.words (diagonalRound X) = mix (g.words X) :=
  words_rounds (by decide) hg

theorem doubleRound_injective : Function.Injective doubleRound := by
  have hcolumns : Function.Injective columnRound := rounds_injective (gs := columns) (by decide)
  have hdiagonals : Function.Injective diagonalRound := rounds_injective (gs := diagonals) (by decide)
  exact hdiagonals.comp hcolumns

theorem doubleRounds_eq_iterate (n : Nat) (X : Vector Word 16) : doubleRounds n X = doubleRound^[n] X := by
  induction n generalizing X with
  | zero => rfl
  | succ n ih => exact ih (doubleRound X)

theorem permute_injective : Function.Injective permute := by
  intro X Y h
  simp only [permute, doubleRounds_eq_iterate] at h
  exact doubleRound_injective.iterate 10 h

theorem getElem_coreBlock (X : Vector Word 16) (i : Fin 16) : (coreBlock X)[i] = (permute X)[i] + X[i] := by
  rw [coreBlock]
  generalize permute X = P
  fin_cases i <;> rfl

/-! ### The commands on STATE (R212 to R217): what each leaves -/

theorem exec_colrnd (s : State) : exec .colrnd s = .next (done { s with mat := columnRound s.mat }) := rfl
theorem exec_diagrnd (s : State) : exec .diagrnd s = .next (done { s with mat := diagonalRound s.mat }) := rfl
theorem exec_dblrnd (s : State) : exec .dblrnd s = .next (done { s with mat := doubleRound s.mat }) := rfl
theorem exec_perm20 (s : State) : exec .perm20 s = .next (done { s with mat := permute s.mat }) := rfl
theorem exec_core20 (s : State) : exec .core20 s = .next (done { s with mat := coreBlock s.mat }) := rfl

theorem exec_qr {a b c d : Fin 16} (h : (WordGroup.mk a b c d).indices.Nodup) (s : State) :
    exec (.qr a b c d) s = .next (done { s with mat := (WordGroup.mk a b c d).round s.mat }) := by
  refine exec_of_checks_pass (i := .qr a b c d) ?_
  simpa [checksOf, chkDistinct, indicesDistinct, WordGroup.indices, and_assoc] using h

/-! ### The obligations -/

/-- Settles O6: the quarter round on a group whose four indices are distinct. -/
theorem qrMixesFourWords : Obligations.QrMixesFourWords := by
  intro s a b c d hab hac had hbc hbd hcd a₁ d₁ c₁ b₁ a₂ d₂ c₂ b₂ ha₁ hd₁ hc₁ hb₁ ha₂ hd₂ hc₂ hb₂
  have hnodup : (WordGroup.mk a b c d).indices.Nodup := by simp [WordGroup.indices, hab, hac, had, hbc, hbd, hcd]
  have hwords : (WordGroup.mk a b c d).words ((WordGroup.mk a b c d).round s.mat) = (a₂, b₂, c₂, d₂) := by
    rw [words_round_self hnodup]
    subst ha₁ hd₁ hc₁ hb₁ ha₂ hd₂ hc₂ hb₂
    simp only [quarterRound, WordGroup.words, rotl_eq_rotateLeft, Nat.reduceLT]
  simp only [WordGroup.words, Prod.mk.injEq] at hwords
  obtain ⟨ha, hb, hc, hd⟩ := hwords
  refine ⟨_, exec_qr hnodup s, rfl, ha, hb, hc, hd, fun m hma hmb hmc hmd => getElem_round_of_notMem ?_⟩
  simp [WordGroup.indices, hma, hmb, hmc, hmd]

/-- Settles O8: column L is one of the round's four groups. -/
theorem colrndMixesEachColumn : Obligations.ColrndMixesEachColumn := by
  intro s
  refine ⟨_, exec_colrnd s, rfl, fun L hL => ?_⟩
  interval_cases L
  · exact words_columnRound (g := ⟨0, 4, 8, 12⟩) (by simp [columns])
  · exact words_columnRound (g := ⟨1, 5, 9, 13⟩) (by simp [columns])
  · exact words_columnRound (g := ⟨2, 6, 10, 14⟩) (by simp [columns])
  · exact words_columnRound (g := ⟨3, 7, 11, 15⟩) (by simp [columns])

/-- Settles O9: diagonal L is one of the round's four groups. -/
theorem diagrndMixesEachDiagonal : Obligations.DiagrndMixesEachDiagonal := by
  intro s
  refine ⟨_, exec_diagrnd s, rfl, fun L hL => ?_⟩
  interval_cases L
  · exact words_diagonalRound (g := ⟨0, 5, 10, 15⟩) (by simp [diagonals])
  · exact words_diagonalRound (g := ⟨1, 6, 11, 12⟩) (by simp [diagonals])
  · exact words_diagonalRound (g := ⟨2, 7, 8, 13⟩) (by simp [diagonals])
  · exact words_diagonalRound (g := ⟨3, 4, 9, 14⟩) (by simp [diagonals])

/-- Settles O10: neither group's quarter round reads or writes a word of the other. -/
theorem disjointQuarterRoundsCommute : Obligations.DisjointQuarterRoundsCommute := by
  intro X a b c d i j k l hnodup
  obtain ⟨hg, hh, hd⟩ := List.nodup_append'.1 (show ([a, b, c, d] ++ [i, j, k, l]).Nodup from hnodup)
  exact round_comm (g := ⟨a, b, c, d⟩) (h := ⟨i, j, k, l⟩) hg hh hd

/-- Settles O11. -/
theorem dblrndIsColrndThenDiagrnd : Obligations.DblrndIsColrndThenDiagrnd :=
  fun s => ⟨_, _, exec_colrnd s, exec_diagrnd _, exec_dblrnd s⟩

/-- The state that DBLRND leaves (R215). -/
abbrev afterDblrnd (s : State) : State := done { s with mat := doubleRound s.mat }

theorem iterate_afterDblrnd (n : Nat) (s : State) :
    afterDblrnd^[n + 1] s = done { s with mat := doubleRounds (n + 1) s.mat } := by
  induction n generalizing s with
  | zero => rfl
  | succ n ih => exact ih (afterDblrnd s)

/-- Settles O12: each of the states in turn is what DBLRND leaves of the one before. -/
theorem perm20IsTenDblrnd : Obligations.Perm20IsTenDblrnd := by
  intro s
  refine ⟨fun k => afterDblrnd^[k] s, rfl, fun k _ => ?_, ?_⟩
  · exact (exec_dblrnd _).trans (congrArg _ (Function.iterate_succ_apply' afterDblrnd k s).symm)
  · exact (exec_perm20 s).trans (congrArg _ (iterate_afterDblrnd 9 s).symm)

/-- Settles O13. -/
theorem core20AddsTheOldMatrix : Obligations.Core20AddsTheOldMatrix :=
  fun s => ⟨_, _, exec_perm20 s, exec_core20 s, rfl, rfl, getElem_coreBlock s.mat⟩

/-- Settles O14: every quarter round can be undone, so the permutation can. -/
theorem perm20KeepsMatricesApart : Obligations.Perm20KeepsMatricesApart := by
  intro s s' t t' hne ht ht'
  cases (exec_perm20 s).symm.trans ht
  cases (exec_perm20 s').symm.trans ht'
  exact permute_injective.ne hne

/-- Settles O15: the declared lengths are all that the two commands check. -/
theorem stldLoadsTheInitialMatrix : Obligations.StldLoadsTheInitialMatrix := by
  intro s hkey
  refine ⟨fun hnonce => ?_, fun hnonce => ?_⟩
  · exact exec_of_checks_pass (i := .stldCc) (by simp [checksOf, chkKey, chkNonce, hkey, hnonce])
  · exact exec_of_checks_pass (i := .stldHc) (by simp [checksOf, chkKey, chkNonce, hkey, hnonce])

end Sys2Proof.Machine
end

section
/-! PROOFS. The ChaCha20 context and its keystream: loading it, one block, the counter that never wraps, and the
keystream of a message cut in two (40_chacha20_core.md R209, R210, R220 to R225; 44_xchacha20.md R361, R362). -/

namespace Sys2Proof.Machine

open Sys2Proof.Claims

variable {s t : State}

/-! ### The keystream (R209, R210) -/

/-- Byte 4i + j of a serialised list of words is byte j of word i (R16). -/
theorem serW_getElem (ws : List Word) {i j : Nat} (hi : i < ws.length) (hj : j < 4) :
    (serW ws)[4 * i + j]'(by rw [serW_length]; omega) = ws[i].extractLsb' (8 * j) 8 := by
  induction ws generalizing i with
  | nil => cases hi
  | cons w ws ih =>
    have hcons : serW (w :: ws) = ser32 w ++ serW ws := rfl
    cases i with
    | zero =>
      simp only [hcons, Nat.mul_zero, Nat.zero_add, List.getElem_cons_zero]
      exact (List.getElem_append_left (by simpa using hj)).trans (ser32_getElem w j hj)
    | succ i =>
      simp only [hcons, List.getElem_cons_succ]
      rw [List.getElem_append_right (by rw [ser32_length]; omega), ← ih (by simpa using hi)]
      congr 1
      rw [ser32_length]
      omega

theorem keystreamBlock_getElem (kw : Vector Word 8) (c : Word) (nw : Vector Word 3) (i : Fin 16) (j : Fin 4) :
    (keystreamBlock kw c nw)[4 * i.val + j.val]'(by rw [keystreamBlock_length]; omega) =
      (coreBlock (initCc kw c nw))[i].extractLsb' (8 * j.val) 8 :=
  serW_getElem (coreBlock (initCc kw c nw)).toList (by simp) j.isLt

/-- The first 64 bytes of the stream are the first block. -/
theorem streamByte_of_lt {keys : Vector Word 8 × Vector Word 3} {c k : Nat} (hk : k < 64) :
    streamByte keys c k =
      (keystreamBlock keys.1 (BitVec.ofNat 32 c) keys.2)[k]'(by rwa [keystreamBlock_length]) := by
  simp only [streamByte, Nat.div_eq_of_lt hk, Nat.mod_eq_of_lt hk, Nat.add_zero]
  exact List.getD_eq_getElem _ _ _

/-- The stream from n blocks further on is the stream less its first n blocks. -/
theorem streamByte_add_blocks (keys : Vector Word 8 × Vector Word 3) (c n k : Nat) :
    streamByte keys (c + n) k = streamByte keys c (64 * n + k) := by
  have hblock : c + n + k / 64 = c + (64 * n + k) / 64 := by omega
  have hbyte : k % 64 = (64 * n + k) % 64 := by omega
  rw [streamByte, streamByte, hblock, hbyte]

/-- XORKS of a whole number of blocks and more goes on after them with the counter that they leave (R224). -/
theorem xorKs_append (keys : Vector Word 8 × Vector Word 3) (c : Nat) {M N : List Byte} {n : Nat}
    (hM : M.length = 64 * n) :
    (xorKs keys.1 keys.2 c (M ++ N)).1 = (xorKs keys.1 keys.2 c M).1 ++ (xorKs keys.1 keys.2 (c + n) N).1 := by
  apply List.ext_getElem (by simp)
  intro k hk _
  rw [xorKs_length] at hk
  rw [xorKs_getElem_streamByte keys c _ hk, List.getElem_append, List.getElem_append]
  simp only [xorKs_length]
  split
  next hkM => rw [xorKs_getElem_streamByte keys c M hkM]
  next hkM =>
    have hkN : k - M.length < N.length := by
      rw [List.length_append] at hk
      omega
    have hplace : 64 * n + (k - M.length) = k := by omega
    rw [xorKs_getElem_streamByte keys (c + n) N hkN, streamByte_add_blocks, hplace]

/-! ### The counter (R223) -/

theorem chkCounter_passes {nb : State → Nat} (h : s.ccnext + nb s ≤ 2 ^ 32) : (chkCounter nb).1 s = true :=
  decide_eq_true h

theorem chkCounter_fails {nb : State → Nat} (h : 2 ^ 32 < s.ccnext + nb s) : (chkCounter nb).1 s = false :=
  decide_eq_false h.not_ge

theorem chkCounter_code (nb : State → Nat) : (chkCounter nb).2 = .counterOverflow := rfl

theorem ccnext_effectOf_ccBlock (s : State) : (effectOf .ccBlock s).ccnext = s.ccnext + 1 := by
  simp only [effectOf, ccBlockEffect]

theorem ccnext_effectOf_ccXor (s : State) : (effectOf .ccXor s).ccnext = s.ccnext + ceilDiv s.len.toNat 64 := by
  simp only [effectOf, ccXorEffect, xorKs_next, memRead_length]

/-- A command that asks for nb blocks and moves CCNEXT past them when it succeeds keeps it between its old value and
2^32. -/
theorem ccnext_of_counter_check {i : Instr} {nb : State → Nat} (hle : s.ccnext ≤ 2 ^ 32)
    (hcheck : chkCounter nb ∈ checksOf i) (heffect : (effectOf i s).ccnext = s.ccnext + nb s)
    (he : exec i s = .next t) : s.ccnext ≤ t.ccnext ∧ t.ccnext ≤ 2 ^ 32 := by
  rw [exec_eq_complete] at he
  obtain ⟨hc, rfl⟩ | ⟨-, rfl⟩ := complete_next he
  · have hroom : s.ccnext + nb s ≤ 2 ^ 32 := of_decide_eq_true (check_passes hc hcheck)
    rw [finish_ccnext, heffect]
    exact ⟨Nat.le_add_right _ _, hroom⟩
  · exact ⟨le_rfl, hle⟩

theorem exec_of_firstError {i : Instr} {e : ErrCode} (he : e ≠ .ok) (h : firstError s (checksOf i) = e) :
    exec i s = .next (failed s e) := by
  subst h
  rw [exec_eq_complete, complete_error he]
  rfl

theorem readByte_finish (s : State) (e : ErrCode) (a : Nat) : (s.finish e).readByte a = s.readByte a := rfl

/-- CC_BLOCK writes the buffer and CCNEXT (R221). -/
theorem finish_ccBlockEffect (s : State) : (ccBlockEffect s).finish .ok =
    done { s with buf := ((ccBlockEffect s).finish .ok).buf, ccnext := s.ccnext + 1 } := by
  rw [ccBlockEffect]
  generalize keystreamBlock s.cckey (BitVec.ofNat 32 s.ccnext) s.ccnonce = B
  rfl

/-! ### The obligations -/

/-- Settles O17: XC_INIT derives its key as HCHACHA does from the first 16 bytes of the nonce. -/
theorem initLoadsTheContext : Obligations.InitLoadsTheContext := by
  intro s hkey
  refine ⟨fun hnonce => ?_, fun hnonce => ?_⟩
  · exact exec_of_checks_pass (i := .ccInit) (by simp [checksOf, chkKey, chkNonce, hkey, hnonce])
  · refine ⟨_, exec_of_checks_pass (i := .hchacha) (by simp [checksOf, chkKey, chkNonce, hkey]), ?_⟩
    exact exec_of_checks_pass (i := .xcInit) (by simp [checksOf, chkKey, chkNonce, hkey, hnonce])

/-- Settles O18: the block that CC_BLOCK stores is CORE20's matrix serialised. -/
theorem ccBlockStoresOneBlock : Obligations.CcBlockStoresOneBlock := by
  intro s hdst hvalid hcounter
  have hroom : (chkCounter fun _ => 1).1 s = true := chkCounter_passes hcounter
  have hpass : ∀ c ∈ checksOf .ccBlock, c.1 s = true := by
    simp [checksOf, chkDstBlock, chkValid, State.inRange, hdst, hvalid, hroom]
  have hread (a : Nat) : ((ccBlockEffect s).finish .ok).readByte a = _ :=
    (readByte_finish _ _ a).trans (readByte_ccBlockEffect s a)
  refine ⟨_, _, exec_of_checks_pass hpass, finish_ccBlockEffect s, exec_core20 _, fun i j => ?_, fun a ha => ?_⟩
  · have hbyte := keystreamBlock_getElem s.cckey (BitVec.ofNat 32 s.ccnext) s.ccnonce i j
    refine ⟨?_, (streamByte_of_lt (by omega)).trans hbyte⟩
    exact (hread _).trans ((readByte_memWrite_inside s _ _ _).trans hbyte)
  · exact (hread a).trans (readByte_memWrite_outside s _ _ (by rwa [keystreamBlock_length]))

/-- Settles O20: the counter check fails when the blocks do not fit; a command that moves CCNEXT has passed it. -/
theorem counterNeverWraps : Obligations.CounterNeverWraps := by
  refine ⟨fun s hvalid hdst hfull => ?_, fun s hvalid hsrc hdst hfull => ?_, fun i s t hle hcc hxc he => ?_⟩
  · have hover : (chkCounter fun _ => 1).1 s = false := chkCounter_fails hfull
    refine exec_of_firstError nofun ?_
    simp [checksOf, chkDstBlock, chkValid, State.inRange, hdst, hvalid, hover, chkCounter_code]
  · have hover : (chkCounter fun s => ceilDiv s.len.toNat 64).1 s = false := chkCounter_fails hfull
    refine exec_of_firstError nofun ?_
    simp [checksOf, chkSrc, chkDst, chkValid, State.inRange, hsrc, hdst, hvalid, hover, chkCounter_code]
  · by_cases hmoves : i = .ccBlock ∨ i = .ccXor
    · obtain rfl | rfl := hmoves
      · exact ccnext_of_counter_check (nb := fun _ => 1) hle (by simp [checksOf]) (ccnext_effectOf_ccBlock s) he
      · exact ccnext_of_counter_check (nb := fun s => ceilDiv s.len.toNat 64) hle (by simp [checksOf])
          (ccnext_effectOf_ccXor s) he
    · obtain ⟨-, -, -, -, -, hwriters, -⟩ := registersHaveTheirWritersOnly i s t he
      have hsame : t.ccnext = s.ccnext := by
        by_contra hne
        obtain h | h | h | h := hwriters hne
        exacts [hcc h, hxc h, hmoves (.inl h), hmoves (.inr h)]
      exact ⟨hsame.ge, hsame.le.trans hle⟩

/-- Settles O21: both times byte k is XORed with byte k of one keystream. -/
theorem ccXorTwiceGivesTheMessageBack : Obligations.CcXorTwiceGivesTheMessageBack := by
  intro s t u hsrc hdst hvalid hroom ht hkey hnonce hnext hvalid' hlen hsrc' hdst' hheld
  obtain ⟨t', ht', -, hfirst, -⟩ := ccXorStoresMessageXorKeystream s hsrc hdst hvalid hroom
  cases ht.symm.trans ht'
  obtain ⟨v, hv, hdone, hsecond, -⟩ :=
    ccXorStoresMessageXorKeystream u hsrc' hdst' hvalid' (by rwa [hnext, hlen])
  refine ⟨v, hv, by rw [hdone], fun k hk => ?_⟩
  rw [hsecond k (hlen ▸ hk), hheld k hk, hfirst k hk, hkey, hnonce, hnext, BitVec.xor_assoc, BitVec.xor_self,
    BitVec.xor_zero]

/-- Settles O22: the first part is a whole number of blocks, and the stream goes on after them. -/
theorem keystreamContinuesAtBlockBoundaries : Obligations.KeystreamContinuesAtBlockBoundaries := by
  intro kw nw c M N hcut
  obtain ⟨n, hM⟩ := Nat.dvd_of_mod_eq_zero hcut
  have hnext : (xorKs kw nw c M).2 = c + n := by
    rw [xorKs_next, ceilDiv]
    omega
  refine ⟨hnext ▸ xorKs_append (kw, nw) c hM, ?_⟩
  simp only [xorKs_next, ceilDiv, List.length_append]
  omega

end Sys2Proof.Machine
end

section
/-! PROOFS. Poly1305: the clamp, the blocks and the tag (41_poly1305.md R261 to R268), P_INIT and P_TAG (R269, R270),
and the moves of the context along a run (R271; 10_state.md R55; 70_reset_and_hazards.md R450, R452). -/

namespace Sys2Proof.Machine

open Sys2Proof.Claims

variable {s t : State}

/-! ### What moves the Poly1305 context (R55, R269 to R271) -/

/-- A command that ends with ERR = 0 has passed its checks and had its effect (R402 to R404). -/
theorem exec_next_ok {i : Instr} (he : exec i s = .next t) (hok : t.err = .ok) :
    firstError s (checksOf i) = .ok ∧ t = (effectOf i s).finish .ok := by
  rw [exec_eq_complete] at he
  obtain h | ⟨hc, rfl⟩ := complete_next he
  · exact h
  · exact absurd hok hc

theorem pstat_of_pInit_ok (he : exec .pInit s = .next t) (hok : t.err = .ok) : t.pstat = .ready := by
  obtain ⟨-, rfl⟩ := exec_next_ok he hok
  rfl

theorem pstat_of_pTag_ok (he : exec .pTag s = .next t) (hok : t.err = .ok) :
    s.pstat = .ready ∧ t.pstat = .used := by
  obtain ⟨hc, rfl⟩ := exec_next_ok he hok
  have hready : s.ready = true := check_passes hc (c := chkReady) (by simp [checksOf])
  exact ⟨eq_of_beq hready, rfl⟩

/-- Of the commands only a successful P_INIT or P_TAG moves the context. -/
theorem exec_moves_pstat {i : Instr} (he : exec i s = .next t) (hne : t.pstat ≠ s.pstat) :
    t.err = .ok ∧ (i = .pInit ∨ i = .pTag) := by
  obtain ⟨-, -, -, -, -, -, -, hwriters, -⟩ := registersHaveTheirWritersOnly i s t he
  refine ⟨?_, hwriters (.inr hne)⟩
  rw [exec_eq_complete] at he
  obtain ⟨-, rfl⟩ | ⟨-, rfl⟩ := complete_next he
  · rfl
  · exact absurd rfl hne

theorem offset_of_ofOffset {off : Nat} {r : Reg} (h : Reg.ofOffset off = some r) : r.offset = off := by
  simpa using List.find?_some h

/-- Of the host's register writes only a soft reset moves the context (R452). -/
theorem writeReg_moves_pstat {r : Reg} {v : Word} (hne : (s.writeReg r v).pstat ≠ s.pstat) :
    r = .ctrl ∧ v.getLsbD 1 = true ∧ (s.writeReg r v).pstat = .none := by
  cases r with
  | ctrl =>
    cases hsrst : v.getLsbD 1 with
    | false =>
      rw [State.writeReg, writeCtrl_of_not_srst hsrst] at hne
      exact absurd rfl hne
    | true => exact ⟨rfl, rfl, congrArg State.pstat (if_pos hsrst)⟩
  | _ => exact absurd rfl hne

theorem portWrite_moves_pstat {off : Nat} {v : Word} (hne : (s.portWrite off v).pstat ≠ s.pstat) :
    off = 0x004 ∧ v.getLsbD 1 = true ∧ (s.portWrite off v).pstat = .none := by
  unfold State.portWrite at hne ⊢
  split_ifs at hne ⊢
  · exact absurd rfl hne
  · split at hne
    next r hr =>
      obtain ⟨rfl, hsrst, hnone⟩ := writeReg_moves_pstat hne
      exact ⟨(offset_of_ofOffset hr).symm, hsrst, hnone⟩
    next => exact absurd rfl hne
  · exact absurd rfl hne

theorem hostAccess_moves_pstat {a : HostAccess} (he : hostAccess a s = .next t) (hne : t.pstat ≠ s.pstat) :
    t.pstat = .none ∧ SoftResets a := by
  obtain ⟨-, ⟨-, w, off, -, rfl⟩ | ⟨hp, w, off, v, rfl, rfl⟩ | ⟨-, -, rfl⟩ | ⟨-, -, rfl⟩⟩ := hostAccess_next he
  · exact absurd rfl hne
  · obtain ⟨rfl, hsrst, hnone⟩ := portWrite_moves_pstat hne
    obtain rfl : w = 32 := width_of_performed hp
    exact ⟨hnone, v, rfl, hsrst⟩
  · exact absurd rfl hne
  · exact absurd rfl hne

/-- A step completes a command with success when the engine's turn executes it and ERR is then 0 (R403). -/
theorem completes_of_exec {i : Instr} {rest : List Turn} (hn : EngineNext s rest) (hb : s.busy = true)
    (hi : decode s.lastcmd = .ok i) (he : exec i { s with agenda := rest } = .next t) (hok : t.err = .ok) :
    Completes i s t := by
  have hturn := engineTurn_command (s := { s with agenda := rest }) hb hi
  exact ⟨⟨rest, hn⟩, hb, hi, (step_engine hn).trans (hturn.trans he), hok⟩

theorem Completes.exec_next {i : Instr} (h : Completes i s t) :
    ∃ rest, exec i { s with agenda := rest } = .next t ∧ t.err = .ok := by
  obtain ⟨⟨rest, hn⟩, hb, hi, hs, hok⟩ := h
  have hturn := engineTurn_command (s := { s with agenda := rest }) hb hi
  exact ⟨rest, hturn.symm.trans ((step_engine hn).symm.trans hs), hok⟩

/-- P_TAG succeeds on a READY context only, and uses it up. -/
theorem Completes.pTag_pstat (h : Completes .pTag s t) : s.pstat = .ready ∧ t.pstat = .used := by
  obtain ⟨rest, he, hok⟩ := h.exec_next
  exact pstat_of_pTag_ok (s := { s with agenda := rest }) he hok

/-- The moves of the Poly1305 context in one step. -/
theorem step_moves_pstat (hs : step s = .next t) (hne : t.pstat ≠ s.pstat) :
    (t.pstat = .ready ∧ Completes .pInit s t) ∨ (s.pstat = .ready ∧ t.pstat = .used ∧ Completes .pTag s t) ∨
    (t.pstat = .none ∧ ∃ a rest, s.agenda = a :: rest ∧ (a = .powerOn ∨ ∃ h, a = .host h ∧ SoftResets h)) := by
  obtain ⟨rest, hn, he⟩ | ⟨a, rest, ha, he⟩ | ⟨rest, ha, rfl⟩ := step_next hs
  · obtain ⟨-, rfl⟩ | ⟨hb, i, hi, he⟩ | ⟨-, -, rfl⟩ := engineTurn_next he
    · exact absurd rfl hne
    · obtain ⟨hok, rfl | rfl⟩ := exec_moves_pstat he hne
      · exact .inl ⟨pstat_of_pInit_ok he hok, completes_of_exec hn hb hi he hok⟩
      · obtain ⟨hready, hused⟩ := pstat_of_pTag_ok he hok
        exact .inr (.inl ⟨hready, hused, completes_of_exec hn hb hi he hok⟩)
    · exact absurd rfl hne
  · obtain ⟨hnone, hsrst⟩ := hostAccess_moves_pstat he hne
    exact .inr (.inr ⟨hnone, .host a, rest, ha, .inr ⟨a, rfl, hsrst⟩⟩)
  · exact .inr (.inr ⟨rfl, .powerOn, rest, ha, .inl rfl⟩)

/-- Only P_INIT makes a context READY. -/
theorem completes_pInit_of_becomes_ready (hs : step s = .next t) (hbefore : s.pstat ≠ .ready)
    (hafter : t.pstat = .ready) : Completes .pInit s t := by
  obtain ⟨-, h⟩ | ⟨h, -⟩ | ⟨h, -⟩ := step_moves_pstat hs (hafter.trans_ne hbefore.symm)
  · exact h
  · exact absurd h hbefore
  · cases hafter.symm.trans h

/-- On the way from a context that is not READY to one that is, a P_INIT succeeds. -/
theorem exists_pInit_of_becomes_ready {ss : Nat → State} {m n : Nat} (hmn : m ≤ n) :
    (∀ j < n, step (ss j) = .next (ss (j + 1))) → (ss m).pstat ≠ .ready → (ss n).pstat = .ready →
    ∃ j, m ≤ j ∧ j < n ∧ Completes .pInit (ss j) (ss (j + 1)) := by
  induction n, hmn using Nat.le_induction with
  | base => exact fun _ hm hn => absurd hn hm
  | succ n hmn ih =>
    intro hrun hm hn
    by_cases hready : (ss n).pstat = .ready
    · obtain ⟨j, hmj, hjn, hj⟩ := ih (fun j hj => hrun j (by omega)) hm hready
      exact ⟨j, hmj, by omega, hj⟩
    · exact ⟨n, hmn, by omega, completes_pInit_of_becomes_ready (hrun n (by omega)) hready hn⟩

/-- Settles O29: the first P_TAG leaves the context USED, the second finds it READY, and only P_INIT makes it so. -/
theorem pTagIsSingleUse : Obligations.PTagIsSingleUse := by
  refine ⟨fun ss m n hrun hmn hfirst hsecond => ?_, fun s t => step_moves_pstat⟩
  obtain ⟨-, hused⟩ := hfirst.pTag_pstat
  obtain ⟨hready, -⟩ := hsecond.pTag_pstat
  obtain ⟨j, hmj, hjn, hj⟩ :=
    exists_pInit_of_becomes_ready hmn (fun j hj => hrun j (by omega)) (by simp [hused]) hready
  exact ⟨j, hmj, hjn, hj⟩

/-! ### The clamp (R262) -/

/-- The bytes of a bitwise AND are the ANDs of the bytes. -/
theorem serN_and (k : Nat) : ∀ x y, serN (x &&& y) k = List.zipWith (· &&& ·) (serN x k) (serN y k) := by
  induction k with
  | zero => exact fun _ _ => rfl
  | succ k ih =>
    intro x y
    simp only [serN, List.zipWith_cons_cons, BitVec.ofNat_and, Nat.and_div_two_pow, ih]

/-- The integer of the ANDs of words is the AND of the integers. -/
theorem wordsInt_zipWith_and : ∀ {ws vs : List Word}, ws.length = vs.length →
    wordsInt (List.zipWith (· &&& ·) ws vs) = wordsInt ws &&& wordsInt vs
  | [], [], _ => rfl
  | w :: ws, v :: vs, h => by
    have hlow (u : Word) (us : List Word) : wordsInt (u :: us) % 2 ^ 32 = u.toNat := by
      have := u.isLt
      simp only [wordsInt]
      omega
    have hhigh (u : Word) (us : List Word) : wordsInt (u :: us) / 2 ^ 32 = wordsInt us := by
      have := u.isLt
      simp only [wordsInt]
      omega
    rw [← Nat.mod_add_div (wordsInt (w :: ws) &&& wordsInt (v :: vs)) (2 ^ 32), Nat.and_mod_two_pow,
      Nat.and_div_two_pow, hlow, hlow, hhigh, hhigh, ← wordsInt_zipWith_and (Nat.succ.inj h)]
    rfl

/-- The bytes of the mask of R262. -/
def clampMask : List Byte :=
  [0xff, 0xff, 0xff, 0x0f, 0xfc, 0xff, 0xff, 0x0f, 0xfc, 0xff, 0xff, 0x0f, 0xfc, 0xff, 0xff, 0x0f]

theorem clampMask_getD : ∀ i < 16, clampMask.getD i 0 =
    if i = 3 ∨ i = 7 ∨ i = 11 ∨ i = 15 then 0x0f else if i = 4 ∨ i = 8 ∨ i = 12 then 0xfc else 0xff := by
  decide

/-- The clamp masks byte by byte. -/
theorem serN_clamp_leInt {B : List Byte} (h : B.length = 16) :
    serN (clamp (leInt B)) 16 = List.zipWith (· &&& ·) B clampMask := by
  have hmask : serN 0x0ffffffc0ffffffc0ffffffc0fffffff 16 = clampMask := rfl
  rw [clamp, serN_and, hmask, ← h, serN_leInt]

/-- The clamp on words is the clamp on the integer that the words hold. -/
theorem wordsInt_clampWords (k : Vector Word 8) :
    wordsInt (clampWords k).toList = clamp (wordsInt [k[0], k[1], k[2], k[3]]) :=
  wordsInt_zipWith_and (ws := [k[0], k[1], k[2], k[3]]) (vs := [0x0fffffff, 0x0ffffffc, 0x0ffffffc, 0x0ffffffc]) rfl

/-- Settles O24: each byte is masked by the mask's byte, which is 0xff where no bit is cleared. -/
theorem clampClearsTheNamedBits : Obligations.ClampClearsTheNamedBits := by
  refine ⟨fun B hB i hi => ?_, fun _ => rfl, fun k => ⟨?_, rfl⟩⟩
  · have hbyte : (serN (clamp (leInt B)) 16).getD i 0 = B.getD i 0 &&& clampMask.getD i 0 := by
      have hB' : i < B.length := by omega
      have hmask : i < clampMask.length := hi
      rw [serN_clamp_leInt hB, List.getD_eq_getElem _ _ (by simp [hB', hmask]), List.getElem_zipWith,
        List.getD_eq_getElem _ _ hB', List.getD_eq_getElem _ _ hmask]
    rw [hbyte, clampMask_getD i hi]
    split_ifs
    · rfl
    · rfl
    · exact BitVec.and_allOnes
  · rw [leInt_serW, wordsInt_clampWords]

/-! ### Blocks (R263 to R265) -/

theorem blockValue_eq_leInt_append (B : List Byte) : blockValue B = leInt (B ++ [1]) := by
  rw [leInt_append]
  exact congrArg (leInt B + ·) (Nat.mul_one _).symm

/-- Settles O25: the byte 1 after m bytes weighs 2^(8m). -/
theorem blockValueAppendsOneByte : Obligations.BlockValueAppendsOneByte :=
  fun B _ _ => ⟨rfl, blockValue_eq_leInt_append B, fun h => by rw [blockValue, h]⟩

theorem polyAcc_nil (r acc : Nat) : polyAcc r acc [] = acc := rfl

/-- The first block of a message, a full one or all of it, is taken into the accumulator, and the rest goes on. -/
theorem polyAcc_append_block (r acc : Nat) {B M : List Byte} (hpos : 1 ≤ B.length) (hle : B.length ≤ 16)
    (h : B.length = 16 ∨ M = []) : polyAcc r acc (B ++ M) = polyAcc r (polyStep r acc B) M := by
  have hcount : ceilDiv (B ++ M).length 16 = ceilDiv M.length 16 + 1 := by
    obtain h | rfl := h <;> simp only [ceilDiv, List.length_append, List.length_nil] <;> omega
  have htake : (B ++ M).take 16 = B := by
    obtain h | rfl := h
    · exact List.take_left' h
    · rw [List.append_nil, List.take_of_length_le hle]
  have hdrop : (B ++ M).drop 16 = M := by
    obtain h | rfl := h
    · exact List.drop_left' h
    · rw [List.append_nil, List.drop_of_length_le hle]
  rw [polyAcc, hcount, polyBlocks, htake, hdrop, polyAcc]

theorem polyStep_eq (r acc : Nat) (B : List Byte) :
    polyStep r acc B = ((acc + leInt B + 2 ^ (8 * B.length)) * r) % (2 ^ 130 - 5) := by
  rw [polyStep, blockValue, Nat.add_assoc, polyP]

/-- POLY of a 32-byte key: r from its first half, s its second (R261, R267). -/
theorem poly_eq {K : List Byte} (hK : K.length = 32) (M : List Byte) :
    poly K M = (polyAcc (clamp (leInt (K.take 16))) 0 M,
      polyTag (polyAcc (clamp (leInt (K.take 16))) 0 M) (leInt (K.drop 16))) := by
  rw [poly, List.take_of_length_le (l := K.drop 16) (by simp [hK])]

/-- Settles O58: the model's loop takes one block at a time, and reduction keeps the accumulator below p. -/
theorem polyAccumulatesBlockByBlock : Obligations.PolyAccumulatesBlockByBlock := by
  refine ⟨polyAcc_nil, fun r acc B M hpos hle h => ?_, fun K M hK => ?_⟩
  · rw [← polyStep_eq, polyAcc_append_block r acc hpos hle h]
    exact ⟨rfl, polyAcc_lt r M (polyStep_lt r acc B)⟩
  · rw [poly_eq hK]
    exact ⟨rfl, rfl⟩

/-! ### The corner cases of POLY (R268) -/

/-- With r = 0 every product is 0. -/
theorem polyAcc_zero_zero (M : List Byte) : polyAcc 0 0 M = 0 := by
  have hstep (acc : Nat) (B : List Byte) : polyStep 0 acc B = 0 := by rw [polyStep, Nat.mul_zero, Nat.zero_mod]
  have hblocks (nb : Nat) : ∀ M, polyBlocks 0 nb 0 M = 0 := by
    induction nb with
    | zero => exact fun _ => rfl
    | succ nb ih =>
      intro M
      rw [polyBlocks, hstep]
      exact ih _
  exact hblocks _ M

theorem leInt_polyTag (acc s : Nat) : leInt (polyTag acc s) = (acc + s) % 2 ^ 128 := by
  rw [polyTag, leInt_serN, Nat.mod_mod]

/-- With the accumulator 0 the tag is s (R266). -/
theorem polyTag_zero {S : List Byte} (h : S.length = 16) : polyTag 0 (leInt S) = serN (leInt S) 16 := by
  have hlt : leInt S < 2 ^ 128 := by simpa [h] using leInt_lt S
  rw [polyTag, Nat.zero_add, Nat.mod_eq_of_lt hlt]

theorem poly_of_acc_zero {K M : List Byte} (hK : K.length = 32)
    (hacc : polyAcc (clamp (leInt (K.take 16))) 0 M = 0) : poly K M = (0, serN (leInt (K.drop 16)) 16) := by
  rw [poly_eq hK, hacc, polyTag_zero (by simp [hK])]

/-- Settles O26: the first two cases leave the accumulator 0; the others are sums and remainders of fixed numbers. -/
theorem polyCornerCases : Obligations.PolyCornerCases := by
  refine ⟨fun K hK => poly_of_acc_zero hK (polyAcc_nil _ 0), fun K M hK hr => poly_of_acc_zero hK ?_, ?_,
    ⟨rfl, fun acc s _ _ => leInt_polyTag acc s⟩, rfl⟩
  · rw [hr, polyAcc_zero_zero]
  · have hones : polyAcc 1 0 (List.replicate 16 0xff) = 2 ^ 129 - 1 := by decide
    have hreduced : polyAcc 1 (2 ^ 129 - 1) (List.replicate 16 0xff) = 3 := by decide
    refine ⟨hones, ?_, rfl⟩
    calc polyAcc 1 0 (List.replicate 32 0xff)
        = polyAcc 1 (polyAcc 1 0 (List.replicate 16 0xff)) (List.replicate 16 0xff) :=
          polyAcc_append_block 1 0 (B := List.replicate 16 0xff) (by decide) (by decide) (.inl rfl)
      _ = 3 := by rw [hones, hreduced]

/-! ### P_INIT and P_TAG (R269, R270) -/

/-- Settles O23: KEY_LEN is all that P_INIT checks. -/
theorem pInitLoadsThePolyContext : Obligations.PInitLoadsThePolyContext :=
  fun _ hkey => exec_of_checks_pass (i := .pInit) (by simp [checksOf, chkKey, hkey])

/-- P_TAG on a READY context and a region inside the buffer (R270). -/
theorem exec_pTag_of_ready (hsrc : s.src.toNat + s.len.toNat ≤ s.cfg.bufSize) (hready : s.pstat = .ready) :
    exec .pTag s = .next ((pTagEffect s).finish .ok) :=
  exec_of_checks_pass (i := .pTag) (by
    simp [checksOf, chkSrc, chkUnused, chkReady, State.inRange, State.ready, State.used, hsrc, hready])

theorem serW_tag_pTagEffect (s : State) :
    serW (pTagEffect s).tag.toList = polyTag (pTagEffect s).acc (wordsInt s.ps.toList) :=
  serW_tagWords (serN_length 16 _)

/-- Settles O27: the words of TAG are the value of the tag's bytes. -/
theorem pTagAuthenticatesTheMessage : Obligations.PTagAuthenticatesTheMessage := by
  intro s hsrc hready
  refine ⟨_, exec_pTag_of_ready hsrc hready, rfl, rfl, ?_⟩
  rw [← leInt_serW]
  exact (congrArg leInt (serW_tag_pTagEffect s)).trans (leInt_polyTag _ _)

/-- The 32 bytes of KEY: the four words of r, then the four of s (R261). -/
theorem serW_key : ∀ k : Vector Word 8,
    serW k.toList = serW [k[0], k[1], k[2], k[3]] ++ serW [k[4], k[5], k[6], k[7]]
  | ⟨⟨[_, _, _, _, _, _, _, _]⟩, _⟩ => rfl

/-- POLY of the key in KEY0-7 works with the r and s that P_INIT loads. -/
theorem poly_serW_key (k : Vector Word 8) (M : List Byte) : poly (serW k.toList) M =
    (polyAcc (wordsInt (clampWords k).toList) 0 M,
      polyTag (polyAcc (wordsInt (clampWords k).toList) 0 M) (wordsInt [k[4], k[5], k[6], k[7]])) := by
  have hr : (serW k.toList).take 16 = serW [k[0], k[1], k[2], k[3]] := by
    rw [serW_key]
    exact List.take_left' (serW_length _)
  have hs : (serW k.toList).drop 16 = serW [k[4], k[5], k[6], k[7]] := by
    rw [serW_key]
    exact List.drop_left' (serW_length _)
  rw [poly_eq (by simp), hr, hs, leInt_serW, leInt_serW, wordsInt_clampWords]

/-- Settles O28: P_TAG finds the clamped r, s and ACC = 0, and the message where it was. -/
theorem pInitThenPTagComputesPoly : Obligations.PInitThenPTagComputesPoly := by
  intro s hkey hsrc
  have htag := exec_pTag_of_ready (s := (pInitEffect s).finish .ok) hsrc rfl
  have hacc : (pTagEffect ((pInitEffect s).finish .ok)).acc =
      polyAcc (wordsInt (clampWords s.key).toList) 0 (s.memRead s.src.toNat s.len.toNat) :=
    congrArg (polyAcc _ 0) (memRead_congr (s := s) (t := (pInitEffect s).finish .ok) rfl rfl _ _)
  rw [poly_serW_key]
  refine ⟨_, _, pInitLoadsThePolyContext s hkey, htag, hacc, ?_, rfl⟩
  rw [← hacc]
  exact serW_tag_pTagEffect _

end Sys2Proof.Machine
end

section
/-! PROOFS. The AEAD commands as a whole: no COUNTER_OVERFLOW (42_aead.md R306), the state they neither read nor change
(R308, R309; 44_xchacha20.md R364, R365), and decryption undoes encryption (R311, R363). -/

namespace Sys2Proof.Machine

open Sys2Proof.Claims

variable {s t u v : State}

/-- The four AEAD commands. -/
abbrev IsAead (i : Instr) : Prop := i = .aeadEnc ∨ i = .aeadDec ∨ i = .xaeadEnc ∨ i = .xaeadDec

theorem isAead_of_mem {i : Instr} (h : i ∈ [Instr.aeadEnc, .aeadDec, .xaeadEnc, .xaeadDec]) : IsAead i := by
  simpa using h

/-! ### The counter of the body (R306) -/

/-- LEN is a word, so the body takes at most 2^26 blocks. -/
theorem chkBody_passes (s : State) : chkBody.1 s = true := by
  have hlen := s.len.isLt
  have hblocks : ceilDiv s.len.toNat 64 ≤ 2 ^ 32 - 1 := by
    rw [ceilDiv]
    omega
  exact decide_eq_true hblocks

/-- A code is not reported when every check that carries it passes (R402). -/
theorem firstError_ne {e : ErrCode} (he : e ≠ .ok) {cs : List Check} (h : ∀ c ∈ cs, c.2 = e → c.1 s = true) :
    firstError s cs ≠ e := by
  induction cs with
  | nil => exact he.symm
  | cons c cs ih =>
    rw [firstError_cons]
    split
    next => exact ih fun d hd => h d (List.mem_cons_of_mem c hd)
    next hfail => exact fun hcode => hfail (h c List.mem_cons_self hcode)

/-- The one counter check of an AEAD command is the body's. -/
theorem eq_chkBody_of_code {i : Instr} (hi : IsAead i) : ∀ c ∈ checksOf i, c.2 = .counterOverflow → c = chkBody := by
  obtain rfl | rfl | rfl | rfl := hi <;>
    simp [checksOf, aeadRegionChecks, chkKey, chkNonce, chkTagLen, chkAad, chkSrc, chkDst, chkAuth]

/-- Settles O36: the body's counter check passes in every state. -/
theorem aeadNeverOverflowsTheCounter : Obligations.AeadNeverOverflowsTheCounter := by
  intro i hi s
  obtain ⟨t, he, -⟩ := exec_next_done i s
  refine ⟨t, he, ?_⟩
  rw [exec_eq_complete] at he
  obtain ⟨-, rfl⟩ | ⟨-, rfl⟩ := complete_next he
  · simp
  · rw [completeError_err]
    refine firstError_ne (e := .counterOverflow) nofun fun c hc hcode => ?_
    rw [eq_chkBody_of_code (isAead_of_mem hi) c hc hcode]
    exact chkBody_passes s

/-! ### The state an AEAD command leaves alone (R308, R309, R364, R365) -/

/-- `s` with the ChaCha20 context, the Poly1305 context, STATE and SUBKEY of `u`. -/
def State.withContexts (s u : State) : State :=
  { s with cckey := u.cckey, ccnonce := u.ccnonce, ccnext := u.ccnext, ccvalid := u.ccvalid, pr := u.pr, ps := u.ps,
           acc := u.acc, pstat := u.pstat, mat := u.mat, subkey := u.subkey }

theorem memRead_withContexts (s u : State) (a n : Nat) : (s.withContexts u).memRead a n = s.memRead a n :=
  memRead_congr (s := s) (t := s.withContexts u) rfl rfl n a

theorem openResult_withContexts (kw : Vector Word 8) (nw : Vector Word 3) (s u : State) :
    openResult kw nw (s.withContexts u) = openResult kw nw s := by
  simp only [openResult, State.srcBytes, State.aadBytes, memRead_withContexts]
  rfl

theorem sealEffect_withContexts (kw : Vector Word 8) (nw : Vector Word 3) (s u : State) :
    sealEffect kw nw (s.withContexts u) = (sealEffect kw nw s).withContexts u := by
  simp only [sealEffect, State.srcBytes, State.aadBytes, memRead_withContexts]
  rfl

theorem openEffect_withContexts (kw : Vector Word 8) (nw : Vector Word 3) (s u : State) :
    openEffect kw nw (s.withContexts u) = (openEffect kw nw s).withContexts u := by
  rw [openEffect, openEffect, openResult_withContexts]
  cases openResult kw nw s <;> rfl

theorem effectOf_withContexts {i : Instr} (hi : IsAead i) (s u : State) :
    effectOf i (s.withContexts u) = (effectOf i s).withContexts u := by
  obtain rfl | rfl | rfl | rfl := hi
  · exact sealEffect_withContexts _ _ s u
  · exact openEffect_withContexts _ _ s u
  · exact sealEffect_withContexts _ _ s u
  · exact openEffect_withContexts _ _ s u

theorem chkAuth_withContexts {keys : State → Vector Word 8 × Vector Word 3} (h : keys (s.withContexts u) = keys s) :
    (chkAuth keys).1 (s.withContexts u) = (chkAuth keys).1 s := by
  simp only [chkAuth, h, openResult_withContexts]

/-- Only the tag comparison needs an argument: the other checks read registers that are the same. -/
theorem firstError_withContexts {i : Instr} (hi : IsAead i) (s u : State) :
    firstError (s.withContexts u) (checksOf i) = firstError s (checksOf i) := by
  have hdec {keys : State → Vector Word 8 × Vector Word 3} (n : Byte) (h : keys (s.withContexts u) = keys s) :
      firstError (s.withContexts u) ([chkKey, chkNonce n, chkTagLen] ++ aeadRegionChecks ++ [chkAuth keys]) =
        firstError s ([chkKey, chkNonce n, chkTagLen] ++ aeadRegionChecks ++ [chkAuth keys]) := by
    simp only [aeadRegionChecks, List.cons_append, List.nil_append, firstError_cons, chkAuth_withContexts h]
    rfl
  obtain rfl | rfl | rfl | rfl := hi
  · rfl
  · exact hdec 12 rfl
  · rfl
  · exact hdec 24 rfl

/-- Settles O34: neither the checks nor the effect reads these fields, and the effect writes none of them. -/
theorem aeadCommandsUsePrivateState : Obligations.AeadCommandsUsePrivateState := by
  intro i hi s s' t hs' he
  have hi := isAead_of_mem hi
  have hf := firstError_withContexts hi s s'
  change s' = s.withContexts s' at hs'
  change exec i s' = .next (t.withContexts s')
  conv_lhs => rw [hs']
  rw [exec_eq_complete] at he ⊢
  obtain ⟨hc, rfl⟩ | ⟨hc, rfl⟩ := complete_next he
  · rw [complete_ok (hf.trans hc), effectOf_withContexts hi]
    rfl
  · rw [complete_error (hf ▸ hc), hf]
    rfl

/-! ### Decryption undoes encryption (R311) -/

/-- `u` holds at AAD, at SRC and in TAG0-3 the associated data of `s` and the ciphertext and tag that an encryption of
`s` left in `t`. -/
structure HoldsSealed (s t u : State) : Prop where
  tag : u.tag = t.tag
  len : u.len = s.len
  aadlen : u.aadlen = s.aadlen
  aad : ∀ k < s.aadlen.toNat, u.readByte (u.aad.toNat + k) = s.readByte (s.aad.toNat + k)
  src : ∀ k < s.len.toNat, u.readByte (u.src.toNat + k) = t.readByte (s.dst.toNat + k)

theorem HoldsSealed.tagMatches {keys : Vector Word 8 × Vector Word 3} (h : HoldsSealed s t u)
    (hseals : Seals keys s t) : TagMatches keys u := by
  obtain ⟨-, -, hseal⟩ := hseals
  rw [TagMatches, h.tag, hseal, h.len, h.aadlen, memRead_ext h.aad, memRead_ext h.src]

/-- The same keystream from SRC of `s` to DST of `t` and from SRC of `u` to DST of `v` gives the message back. -/
theorem HoldsSealed.readByte_opened {keys : Vector Word 8 × Vector Word 3} {c k : Nat} (h : HoldsSealed s t u)
    (hst : XorsIntoDst keys c s t) (huv : XorsIntoDst keys c u v) (hk : k < s.len.toNat) :
    v.readByte (u.dst.toNat + k) = s.readByte (s.src.toNat + k) := by
  obtain ⟨hencrypted, -⟩ := hst
  obtain ⟨hdecrypted, -⟩ := huv
  rw [hdecrypted k (h.len ▸ hk), h.src k hk, hencrypted k hk, BitVec.xor_assoc, BitVec.xor_self, BitVec.xor_zero]

/-- A command that opens under the keys of one that seals gives the message back. -/
theorem HoldsSealed.opens {enc dec : Instr} {keys : Vector Word 8 × Vector Word 3} (h : HoldsSealed s t u)
    (he : exec enc s = .next t) (hseal : ∃ t, exec enc s = .next t ∧ Seals keys s t)
    (hopen : TagMatches keys u →
      ∃ v, exec dec u = .next v ∧ v = done { u with buf := v.buf } ∧ XorsIntoDst keys 1 u v) :
    ∃ v, exec dec u = .next v ∧ v.err = .ok ∧
      ∀ k < s.len.toNat, v.readByte (u.dst.toNat + k) = s.readByte (s.src.toNat + k) := by
  obtain ⟨_, he', hseals⟩ := hseal
  cases he.symm.trans he'
  obtain ⟨v, hv, hdone, hxor⟩ := hopen (h.tagMatches hseals)
  obtain ⟨-, hxors, -⟩ := hseals
  exact ⟨v, hv, by rw [hdone], fun k hk => h.readByte_opened hxors hxor hk⟩

/-- Settles O33: what O30 sealed O31 opens, since the key and nonce words of both are made of KEY and NONCE alone. -/
theorem decryptionOfEncryptionGivesThePlaintext : Obligations.DecryptionOfEncryptionGivesThePlaintext := by
  intro enc dec n hpair s t u hskey hsnonce hsregions he hukey hunonce hutaglen huregions hkey hnonce htag hlen haadlen
    haad hsrc
  have hholds : HoldsSealed s t u := ⟨htag, hlen, haadlen, haad, hsrc⟩
  have hchacha : chachaKeys u = chachaKeys s := by rw [chachaKeys, chachaKeys, hkey, hnonce]
  have hxchacha : xchachaKeys u = xchachaKeys s := by rw [xchachaKeys, xchachaKeys, hkey, hnonce]
  obtain ⟨hseal, hsealx⟩ := encryptionSealsTheMessage s hskey hsregions
  obtain ⟨hopen, hopenx⟩ := decryptionOpensTheMessage u hukey hutaglen huregions
  simp only [List.mem_cons, Prod.mk.injEq, List.not_mem_nil, or_false] at hpair
  obtain ⟨rfl, rfl, rfl⟩ | ⟨rfl, rfl, rfl⟩ := hpair
  · exact hholds.opens he (hseal hsnonce) (hchacha ▸ hopen hunonce)
  · exact hholds.opens he (hsealx hsnonce) (hxchacha ▸ hopenx hunonce)

end Sys2Proof.Machine
end

section
/-! PROOFS. HChaCha20: the subkey is two rows of the permuted matrix (43_hchacha20.md R340 to R342). -/

namespace Sys2Proof.Machine

open Sys2Proof.Claims

/-- Settles O16: HCHACHA makes the checks of STLD_HC, and its subkey is two rows of that command's matrix permuted. -/
theorem hchachaIsStldHcThenPerm20 : Obligations.HchachaIsStldHcThenPerm20 := by
  intro s hkey hnonce
  have hpass : ∀ c ∈ [chkKey, chkNonce 16], c.1 s = true := by simp [chkKey, chkNonce, hkey, hnonce]
  have hsubkey : exec .hchacha s = .next (done { s with subkey := hchacha20 s.key s.nonce16 }) :=
    exec_of_checks_pass (i := .hchacha) hpass
  exact ⟨_, _, exec_of_checks_pass (i := .stldHc) hpass, exec_perm20 _, hsubkey⟩

end Sys2Proof.Machine
end

section
/-! PROOFS. Completion and errors: the words that are illegal (60_exceptions.md R405), the code a command reports and
what an error leaves (R400, R402 to R404, R413), and the interrupt that a completion raises (R415). -/

namespace Sys2Proof.Machine

open Sys2Proof.Claims

variable {s t : State}

/-! ### The outcomes of a command and of the engine's turn (R400, R403, R404, R415) -/

/-- The codes that a failing command can report are 1 to 9 (R401). -/
theorem code_bounds_of_ne_ok {e : ErrCode} (h : e ≠ .ok) : 1 ≤ e.code.toNat ∧ e.code.toNat ≤ 9 := by
  cases e with
  | ok => exact absurd rfl h
  | illegalCmd | invalidKeyLength | invalidNonceLength | invalidTagLength | bufferRange | notInitialised
  | instanceConsumed | counterOverflow | authenticationFailed => decide

/-- Settles O37: every command is a completion, and no completion writes AERR or LASTCMD. -/
theorem everyCommandEndsInOneOutcome : Obligations.EveryCommandEndsInOneOutcome := by
  intro i s
  obtain ⟨t, he, hbusy, hdone⟩ := exec_next_done i s
  obtain ⟨⟨-, haerr, hlastcmd, -⟩, -⟩ := registersHaveTheirWritersOnly i s t he
  have herr := (eq_or_ne t.err .ok).imp_right fun h => And.intro h (code_bounds_of_ne_ok h)
  exact ⟨t, he, hbusy, hdone, haerr, hlastcmd, herr⟩

/-- The code a command reports is the first that fails among its checks (R402). -/
theorem exec_err {i : Instr} (he : exec i s = .next t) : t.err = firstError s (checksOf i) := by
  rw [exec_eq_complete] at he
  obtain ⟨hc, rfl⟩ | ⟨-, rfl⟩ := complete_next he
  · exact hc.symm
  · rfl

/-- Settles O39: an error completion is the status part alone, for a command's checks and for an illegal word. -/
theorem errorsChangeOnlyStatus : Obligations.ErrorsChangeOnlyStatus := by
  intro s t hbusy he herr
  obtain ⟨hidle, -⟩ | ⟨-, i, -, hexec⟩ | ⟨-, -, rfl⟩ := engineTurn_next he
  · cases hbusy.symm.trans hidle
  · have hcode := exec_err hexec
    rw [exec_of_firstError herr hcode.symm] at hexec
    exact (Host.Outcome.next.inj hexec).symm
  · rfl

/-- Settles O42: the engine's turn of a busy machine is a completion, which sets DONE and keeps IE. -/
theorem completionRaisesTheInterrupt : Obligations.CompletionRaisesTheInterrupt := by
  refine ⟨fun _ => rfl, fun s hbusy => ?_⟩
  obtain ⟨t, ht, -, hself⟩ := engineTurn_busy hbusy
  have hie : t.ie = s.ie := (congrArg State.ie hself).symm
  have hdone : t.done = true := (congrArg State.done hself).symm
  exact ⟨t, ht, hdone, by simp [State.irq, hie, hdone]⟩

/-! ### Illegal words (R405) -/

/-- The reserved opcodes are those of no row of the opcode map (R144, R145). -/
theorem reservedOpcode_iff {op : Byte} :
    ReservedOpcode op.toNat ↔ op ≠ qrOpcode ∧ fixedRows.lookup op = none := by
  simp only [ReservedOpcode, qrOpcode, fixedRows, List.lookup_eq_none_iff, List.cons_append, List.nil_append,
    List.forall_mem_cons, List.not_mem_nil, false_implies, implies_true, and_true, bne_iff_ne, ne_eq,
    ← BitVec.toNat_inj, BitVec.ofNat_eq_ofNat, BitVec.toNat_ofNat]
  have hlt := op.isLt
  omega

/-- All the ways in which a word fails to decode. -/
theorem decode_error_iff {w : Word} : (∃ e, decode w = .error e) ↔
    (opField w ≠ qrOpcode ∧ fixedRows.lookup (opField w) = none) ∨ topField w ≠ 0 ∨
    (opField w ≠ qrOpcode ∧ midField w ≠ 0) ∨
    (opField w = qrOpcode ∧ indicesDistinct (qaField w) (qbField w) (qcField w) (qdField w) = false) := by
  unfold decode
  split
  next htop => exact iff_of_true ⟨_, rfl⟩ (.inr (.inl htop))
  next htop =>
    split
    next hop => cases indicesDistinct (qaField w) (qbField w) (qcField w) (qdField w) <;> simp [not_not.1 htop, hop]
    next hop =>
      split
      next hnone => exact iff_of_true ⟨_, rfl⟩ (.inl ⟨hop, hnone⟩)
      next i hsome =>
        split
        next hmid => simp [not_not.1 htop, hop, hsome, hmid]
        next hmid => exact iff_of_true ⟨_, rfl⟩ (.inr (.inr (.inl ⟨hop, hmid⟩)))

theorem opField_toNat (w : Word) : (opField w).toNat = w.toNat % 2 ^ 8 := by
  simp [opField]

theorem midField_toNat (w : Word) : (midField w).toNat = w.toNat / 2 ^ 8 % 2 ^ 16 := by
  rw [midField, BitVec.extractLsb'_toNat, Nat.shiftRight_eq_div_pow]

theorem topField_toNat (w : Word) : (topField w).toNat = w.toNat / 2 ^ 24 := by
  have hlt := w.isLt
  rw [topField, BitVec.extractLsb'_toNat, Nat.shiftRight_eq_div_pow, Nat.mod_eq_of_lt (by omega)]

/-- The four index fields are the nibbles from bit 8 on (R140). -/
theorem indices_val (w : Word) : (qaField w).val = index w 0 ∧ (qbField w).val = index w 1 ∧
    (qcField w).val = index w 2 ∧ (qdField w).val = index w 3 := by
  simp [qaField, qbField, qcField, qdField, index, Nat.shiftRight_eq_div_pow]

/-- The decoder's reasons and the clauses of R405 are the same, each clause read as a field of the word. -/
theorem decode_error_iff_illegalWord {w : Word} : (∃ e, decode w = .error e) ↔ IllegalWord w := by
  obtain ⟨ha, hb, hc, hd⟩ := indices_val w
  have htop : (topField w).toNat = 0 ↔ topField w = 0 := BitVec.toNat_inj (y := 0)
  have hmid : (midField w).toNat = 0 ↔ midField w = 0 := BitVec.toNat_inj (y := 0)
  have hqr : (opField w).toNat = 0x10 ↔ opField w = qrOpcode := BitVec.toNat_inj (y := qrOpcode)
  rw [decode_error_iff, IllegalWord, ← opField_toNat, ← midField_toNat, ← topField_toNat, reservedOpcode_iff,
    indicesDistinct_eq_false]
  simp only [htop, hmid, hqr, Fin.ext_iff, ha, hb, hc, hd, not_and_or, not_not, ne_eq]

/-- Settles O2: the decoder refuses exactly the words of R405, and the engine completes a refused word with the code. -/
theorem illegalWordsCompleteWithIllegalCmd : Obligations.IllegalWordsCompleteWithIllegalCmd := by
  refine ⟨fun w => decode_error_iff_illegalWord, fun s hbusy hillegal => ?_⟩
  obtain ⟨e, he⟩ := decode_error_iff_illegalWord.2 hillegal
  simp only [engineTurn, hbusy, if_true, completion, he]
  rfl

/-! ### The tag of a decryption (R305, R413) -/

/-- OPEN gives a plaintext exactly when the tag in TAG0-3 is the one computed. -/
theorem openResult_isSome_iff (keys : Vector Word 8 × Vector Word 3) (s : State) :
    (openResult keys.1 keys.2 s).isSome = true ↔ TagMatches keys s := by
  refine ⟨fun h => ?_, fun h => by rw [openResult_of_tagMatches h]; rfl⟩
  unfold openResult openMessage at h
  split at h
  next heq => exact (eq_of_beq heq).symm.trans (tagOver_eq_aeadTag keys _ _).symm
  next => cases h

theorem chkAuth_fails_iff {keys : State → Vector Word 8 × Vector Word 3} :
    (chkAuth keys).1 s = false ↔ ¬TagMatches (keys s) s := by
  rw [← openResult_isSome_iff, chkAuth, Bool.not_eq_true]

theorem firstError_append_of_pass {cs : List Check} (h : ∀ c ∈ cs, c.1 s = true) (ds : List Check) :
    firstError s (cs ++ ds) = firstError s ds := by
  induction cs with
  | nil => rfl
  | cons c cs ih =>
    obtain ⟨hc, hcs⟩ := List.forall_mem_cons.1 h
    rw [List.cons_append, firstError_cons, if_pos hc, ih hcs]

/-- With the declared lengths and the regions in range only the tag is left to check, and it differs (R413). -/
theorem firstError_of_not_tagMatches {n : Byte} {keys : State → Vector Word 8 × Vector Word 3} (hkey : s.keyLen = 32)
    (hnonce : s.nonceLen = n) (htaglen : s.tagLen = 16) (hregions : RegionsOk s) (htag : ¬TagMatches (keys s) s) :
    firstError s ([chkKey, chkNonce n, chkTagLen] ++ aeadRegionChecks ++ [chkAuth keys]) = .authenticationFailed := by
  have hpass : ∀ c ∈ [chkKey, chkNonce n, chkTagLen] ++ aeadRegionChecks, c.1 s = true := by
    simpa [chkKey, chkNonce, chkTagLen, hkey, hnonce, htaglen] using aeadRegionChecks_pass hregions
  rw [firstError_append_of_pass hpass, firstError_cons, chkAuth_fails_iff.2 htag]
  rfl

/-- Settles O32: both commands, under the key and nonce of R309 and under the derived ones of R361. -/
theorem decryptionFailsClosed : Obligations.DecryptionFailsClosed := by
  intro s hkey htaglen hregions
  refine ⟨fun hnonce htag => ?_, fun hnonce htag => ?_⟩
  · exact exec_of_firstError (i := .aeadDec) nofun
      (firstError_of_not_tagMatches (keys := State.aeadKeys) hkey hnonce htaglen hregions htag)
  · exact exec_of_firstError (i := .xaeadDec) nofun
      (firstError_of_not_tagMatches (keys := State.xKeys) hkey hnonce htaglen hregions htag)

/-! ### The first failing check (R402) -/

/-- A check of the list that carries the code e fails. -/
def Fails (s : State) (cs : List Check) (e : ErrCode) : Prop := ∃ c ∈ cs, c.2 = e ∧ c.1 s = false

@[simp] theorem fails_nil {e : ErrCode} : ¬Fails s [] e := by simp [Fails]

theorem fails_cons {c : Check} {cs : List Check} {e : ErrCode} :
    Fails s (c :: cs) e ↔ (c.2 = e ∧ c.1 s = false) ∨ Fails s cs e := by
  simp [Fails]

theorem fails_firstError {cs : List Check} (h : firstError s cs ≠ .ok) : Fails s cs (firstError s cs) := by
  induction cs with
  | nil => exact absurd rfl h
  | cons c cs ih =>
    rw [firstError_cons] at h ⊢
    split at h
    next hp => rw [if_pos hp]; exact fails_cons.2 (.inr (ih h))
    next hp => rw [if_neg hp]; exact fails_cons.2 (.inl ⟨rfl, Bool.eq_false_iff.2 hp⟩)

/-- Success means that no code of the list fails. -/
theorem firstError_eq_ok_iff_not_fails {cs : List Check} (h : ∀ c ∈ cs, c.2 ≠ .ok) :
    firstError s cs = .ok ↔ ∀ e, ¬Fails s cs e := by
  rw [firstError_eq_ok h]
  refine ⟨?_, fun hnone c hc => ?_⟩
  · rintro hpass e ⟨c, hc, -, hf⟩
    simp [hpass c hc] at hf
  · exact Bool.of_not_eq_false fun hf => hnone c.2 ⟨c, hc, rfl, hf⟩

/-- Checks in ascending code order give the lowest of the codes that fail. -/
theorem firstError_code_le {cs : List Check} (hsorted : cs.Pairwise fun c d => c.2.code.toNat ≤ d.2.code.toNat)
    {e : ErrCode} (h : Fails s cs e) : (firstError s cs).code.toNat ≤ e.code.toNat := by
  induction cs with
  | nil => exact absurd h fails_nil
  | cons c cs ih =>
    obtain ⟨hc, hcs⟩ := List.pairwise_cons.1 hsorted
    rw [firstError_cons]
    split
    next hp =>
      obtain ⟨-, hf⟩ | h := fails_cons.1 h
      · simp [hp] at hf
      · exact ih hcs h
    next =>
      obtain ⟨d, hd, rfl, -⟩ := h
      obtain rfl | hd := List.mem_cons.1 hd
      · exact le_rfl
      · exact hc d hd

/-! ### What it means that a check fails (R405 to R413) -/

section

variable {cs : List Check} {e : ErrCode}

theorem fails_cons_of_iff {c : Check} {code : ErrCode} {P : Prop} (hcode : c.2 = code) (hfail : c.1 s = false ↔ P) :
    Fails s (c :: cs) e ↔ (e = code ∧ P) ∨ Fails s cs e := by
  rw [fails_cons, hcode, hfail, eq_comm]

theorem inRange_eq_false_iff {a n : Nat} : s.inRange a n = false ↔ s.cfg.bufSize < a + n := by
  simp [State.inRange]

@[simp] theorem fails_chkDistinct {a b c d : Fin 16} : Fails s (chkDistinct a b c d :: cs) e ↔
    (e = .illegalCmd ∧ indicesDistinct a b c d = false) ∨ Fails s cs e :=
  fails_cons_of_iff rfl Iff.rfl

@[simp] theorem fails_chkKey : Fails s (chkKey :: cs) e ↔
    (e = .invalidKeyLength ∧ s.keyLen.toNat ≠ 32) ∨ Fails s cs e :=
  fails_cons_of_iff rfl (by simp [chkKey, ← BitVec.toNat_inj])

@[simp] theorem fails_chkNonce {n : Byte} : Fails s (chkNonce n :: cs) e ↔
    (e = .invalidNonceLength ∧ s.nonceLen.toNat ≠ n.toNat) ∨ Fails s cs e :=
  fails_cons_of_iff rfl (by simp [chkNonce, ← BitVec.toNat_inj])

@[simp] theorem fails_chkTagLen : Fails s (chkTagLen :: cs) e ↔
    (e = .invalidTagLength ∧ s.tagLen.toNat ≠ 16) ∨ Fails s cs e :=
  fails_cons_of_iff rfl (by simp [chkTagLen, ← BitVec.toNat_inj])

@[simp] theorem fails_chkSrc : Fails s (chkSrc :: cs) e ↔
    (e = .bufferRange ∧ s.cfg.bufSize < s.src.toNat + s.len.toNat) ∨ Fails s cs e :=
  fails_cons_of_iff rfl inRange_eq_false_iff

@[simp] theorem fails_chkDst : Fails s (chkDst :: cs) e ↔
    (e = .bufferRange ∧ s.cfg.bufSize < s.dst.toNat + s.len.toNat) ∨ Fails s cs e :=
  fails_cons_of_iff rfl inRange_eq_false_iff

@[simp] theorem fails_chkDstBlock : Fails s (chkDstBlock :: cs) e ↔
    (e = .bufferRange ∧ s.cfg.bufSize < s.dst.toNat + 64) ∨ Fails s cs e :=
  fails_cons_of_iff rfl inRange_eq_false_iff

@[simp] theorem fails_chkAad : Fails s (chkAad :: cs) e ↔
    (e = .bufferRange ∧ s.cfg.bufSize < s.aad.toNat + s.aadlen.toNat) ∨ Fails s cs e :=
  fails_cons_of_iff rfl inRange_eq_false_iff

@[simp] theorem fails_chkValid : Fails s (chkValid :: cs) e ↔
    (e = .notInitialised ∧ s.ccvalid = false) ∨ Fails s cs e :=
  fails_cons_of_iff rfl Iff.rfl

@[simp] theorem fails_chkCounter {nb : State → Nat} : Fails s (chkCounter nb :: cs) e ↔
    (e = .counterOverflow ∧ 2 ^ 32 < s.ccnext + nb s) ∨ Fails s cs e :=
  fails_cons_of_iff rfl (by simp [chkCounter])

@[simp] theorem fails_chkBody : Fails s (chkBody :: cs) e ↔ Fails s cs e := by
  simp [fails_cons, chkBody_passes]

@[simp] theorem fails_chkUnused : Fails s (chkUnused :: cs) e ↔
    (e = .instanceConsumed ∧ s.pstat = .used) ∨ Fails s cs e :=
  fails_cons_of_iff rfl (by simp [chkUnused, State.used])

@[simp] theorem fails_chkAuth {keys : State → Vector Word 8 × Vector Word 3} : Fails s (chkAuth keys :: cs) e ↔
    (e = .authenticationFailed ∧ ¬TagMatches (keys s) s) ∨ Fails s cs e :=
  fails_cons_of_iff rfl chkAuth_fails_iff

/-- P_TAG's NOT_INITIALISED in the words of R410: the Poly1305 context is not NONE. -/
def chkContext : Check := (fun s => s.pstat != .none, .notInitialised)

@[simp] theorem fails_chkContext : Fails s (chkContext :: cs) e ↔
    (e = .notInitialised ∧ s.pstat = .none) ∨ Fails s cs e :=
  fails_cons_of_iff rfl (by simp [chkContext])

end

/-! ### The checks of a command in code order (R402) -/

/-- The checks of each command in ascending code order.  P_TAG makes its INSTANCE_CONSUMED check (7) before its
NOT_INITIALISED check (6); here 6 comes first and stands for NONE alone, since the two exclude each other. -/
def orderedChecks (i : Instr) : List Check := if i = .pTag then [chkSrc, chkContext, chkUnused] else checksOf i

theorem firstError_orderedChecks (i : Instr) (s : State) :
    firstError s (orderedChecks i) = firstError s (checksOf i) := by
  by_cases hi : i = .pTag
  · subst hi
    cases h : s.pstat <;> simp [orderedChecks, checksOf, chkContext, chkUnused, chkReady, State.ready, State.used, h]
  · rw [orderedChecks, if_neg hi]

theorem orderedChecks_code_ne_ok (i : Instr) : ∀ c ∈ orderedChecks i, c.2 ≠ .ok := by
  by_cases hi : i = .pTag
  · subst hi
    decide
  · rw [orderedChecks, if_neg hi]
    exact checksOf_code_ne_ok i

theorem orderedChecks_sorted (i : Instr) :
    (orderedChecks i).Pairwise fun c d => c.2.code.toNat ≤ d.2.code.toNat := by
  cases i with
  | qr a b c d => exact List.pairwise_singleton _ _
  | colrnd | diagrnd | dblrnd | perm20 | core20 | stldCc | stldHc | ccInit | ccBlock | ccXor | pInit | pTag
  | aeadEnc | aeadDec | hchacha | xcInit | xaeadEnc | xaeadDec => decide

theorem aeadKeys_eq_chachaKeys (s : State) : s.aeadKeys = chachaKeys s := rfl

theorem xKeys_eq_xchachaKeys (s : State) : s.xKeys = xchachaKeys s := rfl

/-- The model's checks are the causes that the rules name for each command (R405 to R413). -/
theorem applies_iff_fails {i : Instr} {e : ErrCode} : Applies s i e ↔ Fails s (orderedChecks i) e := by
  cases i with
  | qr | colrnd | diagrnd | dblrnd | perm20 | core20 | stldCc | stldHc | ccInit | hchacha | xcInit | pInit | pTag =>
    cases e <;> simp [Applies, orderedChecks, checksOf, needsKey, nonceSize, regions, Instr.wellFormed]
  | ccBlock | ccXor =>
    cases e <;> simp [Applies, orderedChecks, checksOf, needsKey, nonceSize, regions, Instr.wellFormed, ceilDiv]
  | aeadEnc | aeadDec | xaeadEnc | xaeadDec =>
    cases e <;> simp [Applies, orderedChecks, checksOf, needsKey, nonceSize, regions, Instr.wellFormed,
      aeadRegionChecks, aeadKeys_eq_chachaKeys, xKeys_eq_xchachaKeys]

/-- Settles O38: the first failing check in code order is the lowest of the causes. -/
theorem reportedCodeIsTheLowestThatApplies : Obligations.ReportedCodeIsTheLowestThatApplies := by
  refine ⟨fun i s t he => ?_, ?_⟩
  · rw [exec_err he, ← firstError_orderedChecks]
    simp only [applies_iff_fails]
    exact ⟨firstError_eq_ok_iff_not_fails (orderedChecks_code_ne_ok i), fun herr =>
      ⟨fails_firstError herr, fun e => firstError_code_le (orderedChecks_sorted i)⟩⟩
  · rintro i s ⟨⟨hstream, -⟩ | ⟨-, hnone⟩, htag, hused⟩
    · simp [htag] at hstream
    · simp [hnone] at hused

end Sys2Proof.Machine
end

section
/-! PROOFS. Reset: what every register reads after a power-on or a soft reset, and what a soft reset leaves
(70_reset_and_hazards.md R450 to R453). -/

namespace Sys2Proof.Machine

variable {t : State}

/-! ### The state of a reset (R451) -/

/-- Every register at its reset value: the state is a reset's, whatever buffer, parameter, power-on count, read data
and agenda it holds. -/
def AtReset (t : State) : Prop := t = State.atReset t.buf t.cfg t.powerOns t.rdata t.agenda

theorem powerOnWith_atReset (cfg : Config) (agenda : List Turn) : AtReset (State.powerOnWith cfg agenda) := rfl

theorem powerOn_atReset (s : State) : AtReset s.powerOn := rfl

theorem softReset_atReset (s : State) : AtReset s.softReset := rfl

/-- ID has its fixed value in every state (R31). -/
theorem readReg_id (s : State) : s.readReg .id = 0x43544B01 := rfl

/-- A bank of registers that holds only zeros reads 0 at every index. -/
theorem getElem_eq_zero_of_eq_replicate {n : Nat} {x : Vector Word n} (h : x = Vector.replicate n 0) (i : Fin n) :
    x[i] = 0 := by
  subst h
  exact Vector.getElem_replicate i.isLt

/-- Every register but ID reads 0 (R451): the computed ones, the banks, and the plain fields. -/
theorem AtReset.readReg_eq_zero (h : AtReset t) {r : Reg} (hr : r ≠ .id) : t.readReg r = 0 := by
  rw [h]
  cases r with
  | id => exact absurd rfl hr
  | key i | nonce i | tag i | subkey i | mat i | cckey i | ccnonce i | pr i | ps i =>
    exact getElem_eq_zero_of_eq_replicate rfl i
  | acc i => exact congrArg (BitVec.ofNat 32) (Nat.zero_div _)
  | ctrl => exact BitVec.eq_of_toNat_eq (ctrlWord_toNat _)
  | status => exact BitVec.eq_of_toNat_eq (statusWord_toNat _)
  | lencfg => exact BitVec.eq_of_toNat_eq (lencfgWord_toNat _)
  | ccstat => exact BitVec.eq_of_toNat_eq (ccstatWord_toNat _)
  | pstat => exact BitVec.eq_of_toNat_eq (pstatWord_toNat _)
  | cmd | lastcmd | counter | src | dst | len | aad | aadlen | ccctr => rfl

theorem AtReset.integers_eq_zero (h : AtReset t) : t.ccnext = 0 ∧ t.acc = 0 := by
  rw [h]
  exact ⟨rfl, rfl⟩

theorem AtReset.no_context (h : AtReset t) : t.ccvalid = false ∧ t.pstat = .none := by
  rw [h]
  exact ⟨rfl, rfl⟩

theorem AtReset.engine_idle (h : AtReset t) : t.busy = false ∧ t.done = false ∧ t.irq = false := by
  rw [h]
  exact ⟨rfl, rfl, rfl⟩

/-! ### The two resets (R450, R452, R453) -/

/-- A write to CTRL with SRST reaches the register while the engine is busy too, and resets (R60, R452). -/
theorem hostAccess_write_srst {v : Word} (hv : v.getLsbD 1 = true) :
    hostAccess (.write 32 0x004 v) s = .next s.softReset :=
  (hostAccess_write_offset (r := .ctrl) v (.inr rfl)).trans (congrArg _ (if_pos hv))

theorem readByte_softReset (s : State) (a : Nat) : s.softReset.readByte a = s.readByte a :=
  readByte_congr rfl rfl a

/-- Settles O54: the first power-on and a later one both leave a state of a reset. -/
theorem powerOnResetValues : Obligations.PowerOnResetValues := by
  intro t ht
  have h : AtReset t := by
    obtain ⟨cfg, agenda, rfl⟩ | ⟨s, rest, ha, hstep⟩ := ht
    · exact powerOnWith_atReset cfg agenda
    · cases (step_powerOn ha).symm.trans hstep
      exact powerOn_atReset _
  obtain ⟨hccnext, hacc⟩ := h.integers_eq_zero
  obtain ⟨hvalid, hpstat⟩ := h.no_context
  obtain ⟨hbusy, -, hirq⟩ := h.engine_idle
  exact ⟨readReg_id t, fun _ => h.readReg_eq_zero, hccnext, hacc, hvalid, hpstat, hbusy, hirq⟩

/-- Settles O55: the write leaves the state of a soft reset, which keeps the buffer and has an idle engine, so the
command that was outstanding has no turn any more. -/
theorem softResetKeepsOnlyTheBuffer : Obligations.SoftResetKeepsOnlyTheBuffer := by
  intro s v hv
  have h : AtReset s.softReset := softReset_atReset s
  obtain ⟨hccnext, hacc⟩ := h.integers_eq_zero
  obtain ⟨hbusy, hdone, hirq⟩ := h.engine_idle
  exact ⟨s.softReset, hostAccess_write_srst hv, readReg_id _, fun _ => h.readReg_eq_zero, hccnext, hacc, hbusy, hdone,
    hirq, readByte_softReset s, engineTurn_idle hbusy⟩

end Sys2Proof.Machine
end
